-- ==== Sys2Proof/Word.lean ====
section
/-! DEFINITION. The source's literals as one configuration record (`spec/00_scope.md` R8), and the widths the
block uses (R10). All arithmetic is unsigned (R11). -/

namespace Sys2Proof

/-- The configuration record of R8: one field for each parameter of its table. -/
structure Literals where
  /-- `P_EP0_MAX`: bytes of an Endpoint 0 packet. -/
  ep0Max : Nat
  /-- `P_REPORT_LEN`: bytes of a HID report and of an Endpoint 1 packet. -/
  reportLen : Nat
  /-- `P_EP1_INTERVAL`: the polling interval, a descriptor field only (R220). -/
  ep1Interval : Nat
  /-- `P_ADDR_LIMIT`: SetAddress accepts addresses below it. -/
  addrLimit : Nat
  /-- `P_OUTPUT_REPORT_TYPE`: the one accepted SetReport report type. -/
  outputReportType : Nat
  /-- `P_WIRE_BITS`: bits of a value on the wire. -/
  wireBits : Nat
  /-- `P_STORE_BITS`: bits of a stored display value. -/
  storeBits : Nat
  /-- `P_VALUE_MAX`: the logical maximum of a value. -/
  valueMax : Nat
  /-- `P_DIGITS`: BCD digits of a displayed value. -/
  digits : Nat
  /-- `P_DISPLAYS`: values, and displays. -/
  displays : Nat
  /-- `P_FRAME`: bytes of an SPI command frame. -/
  frame : Nat
  /-- `P_NUM_CONFIG`: configurations. -/
  numConfig : Nat
  /-- `P_NUM_INTERFACE`: interfaces. -/
  numInterface : Nat
  deriving DecidableEq, Repr

/-- The source's literals, the values of R8's table. Every rule takes them from here by the names below. -/
abbrev literals : Literals where
  ep0Max := 32
  reportLen := 5
  ep1Interval := 100
  addrLimit := 128
  outputReportType := 2
  wireBits := 20
  storeBits := 24
  valueMax := 999999
  digits := 6
  displays := 2
  frame := 2
  numConfig := 1
  numInterface := 1

/-- `P_EP0_MAX` (R8). -/
def pEp0Max : Nat := literals.ep0Max
/-- `P_REPORT_LEN` (R8). -/
def pReportLen : Nat := literals.reportLen
/-- `P_EP1_INTERVAL` (R8). -/
def pEp1Interval : Nat := literals.ep1Interval
/-- `P_ADDR_LIMIT` (R8). -/
def pAddrLimit : Nat := literals.addrLimit
/-- `P_OUTPUT_REPORT_TYPE` (R8). -/
def pOutputReportType : Nat := literals.outputReportType
/-- `P_WIRE_BITS` (R8). -/
abbrev pWireBits : Nat := literals.wireBits
/-- `P_STORE_BITS` (R8). -/
abbrev pStoreBits : Nat := literals.storeBits
/-- `P_VALUE_MAX` (R8). -/
def pValueMax : Nat := literals.valueMax
/-- `P_DIGITS` (R8). -/
abbrev pDigits : Nat := literals.digits
/-- `P_DISPLAYS` (R8). -/
abbrev pDisplays : Nat := literals.displays
/-- `P_FRAME` (R8). -/
def pFrame : Nat := literals.frame
/-- `P_NUM_CONFIG` (R8). -/
def pNumConfig : Nat := literals.numConfig
/-- `P_NUM_INTERFACE` (R8). -/
def pNumInterface : Nat := literals.numInterface

/-- A byte: every access of the block moves one (R10, R67). -/
abbrev Byte := BitVec 8

/-- A 16-bit quantity: a data-memory address, a setup-packet field, a control-transfer count (R10). -/
abbrev Word16 := BitVec 16

/-- A stored display value (R10, R28). -/
abbrev StoredValue := BitVec pStoreBits

/-- A value on the USB wire (R10, R88). -/
abbrev WireValue := BitVec pWireBits

/-- A data toggle, one bit (R10). -/
abbrev Toggle := BitVec 1

/-- A display (R143). -/
abbrev DisplayId := Fin pDisplays

/-- A digit position, 0 the least significant (R95). -/
abbrev DigitId := Fin pDigits

end Sys2Proof
end

