-- ==== Sys2Proof/Syntax.lean ====
section
/-! DEFINITION. The instructions of the block: one constructor of `Instr` for each of the 51 rows of
`spec/opcode_table.json` (`spec/30_encoding.md` R80), the packets that carry their words, and the names
of the enumerations their operands use. -/

namespace Sys2Proof

/-- The completion callbacks of the SPI engine: a closed enumeration (`spec/10_state.md` R25). -/
inductive Callback where
  | none          -- CB_NONE
  | initDone      -- CB_INIT_DONE
  | keyReadDone   -- CB_KEY_READ_DONE
  deriving DecidableEq, Repr

/-- The causes of the fatal-error signal, codes 1 to 11 of `spec/60_exceptions.md` R251, in its order. -/
inductive FatalCause where
  | spiBusy
  | spiStaleRx
  | spiZeroLength
  | unrecognizedRequest
  | unsupportedDescriptor
  | badSetAddress
  | badConfiguration
  | unsupportedReportType
  | unimplementedGetReport
  | nondefaultAltSetting
  | deviceQualifier
  deriving DecidableEq, Repr

/-- The causes of a model fault, codes 101 to 105 of `spec/60_exceptions.md` R253, in its order. -/
inductive ModelCause where
  | spiOddLength
  | spiSpurious
  | bdOwnership
  | unwrittenRead
  | ep1InOverrun
  deriving DecidableEq, Repr

/-- The instructions: every row of `spec/opcode_table.json`, in the table's order. -/
inductive Instr where
  -- F_EVT, the entry points (R81, R256)
  | evSpiByteComplete
  | evKeyIrq
  | evUsbEp0Setup
  | evUsbEp0Out
  | evUsbEp0In
  | evUsbEp1Out
  | evUsbEp1In
  | evUsbBusReset
  | evUsbBusOther
  | evTimerTick
  | evUsbBadKind (ep : BitVec 1) (dir : BitVec 1) (kind : BitVec 4)
  | evUsbUnknownEp (ep : BitVec 4) (dir : BitVec 1) (kind : BitVec 4)
  | evRefused (src : BitVec 3) (ep : BitVec 4) (dir : BitVec 1) (kind : BitVec 4)
  -- F_CALL, the internal operations (R82)
  | callStartExchange (buf : Word16) (len : Byte) (cb : Callback)
  | callInvokeCallback (cb : Callback)
  | callInitialize
  | callInitDone
  | callTerminate
  | callDisplayValues (v0 v1 : StoredValue)
  | callServiceInterrupt
  | callKeyReadDone
  | callEp1Enable
  | callEp1Disable
  | callNotifyNewValues
  | callFatal (cause : FatalCause)
  | callModelFault (cause : ModelCause)
  -- F_SPI16, the downstream command frames (R83, R94)
  | wrScanLimit
  | wrIntensity
  | wrDecode
  | wrConfigNormal
  | wrPortConfig
  | wrConfigShutdown
  | wrKeyMaskOff
  | wrDigit (display : DisplayId) (digit : DigitId) (data : Byte)
  | rdKeyDebounced
  -- F_SETUP, the control requests (R86, R90)
  | getDescriptorDevice (wValueLo : Byte) (wIndex wLength : Word16)
  | getDescriptorConfiguration (wValueLo : Byte) (wIndex wLength : Word16)
  | getDescriptorString (index : Byte) (wIndex wLength : Word16)
  | getDescriptorDeviceQualifier (wValueLo : Byte) (wIndex wLength : Word16)
  | getDescriptorOtherDevice (descType wValueLo : Byte) (wIndex wLength : Word16)
  | getDescriptorReport (wValueLo : Byte) (wIndex wLength : Word16)
  | getDescriptorOtherInterface (descType wValueLo : Byte) (wIndex wLength : Word16)
  | setAddress (wValue wIndex wLength : Word16)
  | setConfiguration (wValue wIndex wLength : Word16)
  | setInterface (wValue wIndex wLength : Word16)
  | hidSetReport (wValue wIndex wLength : Word16)
  | hidSetIdle (wValue wIndex wLength : Word16)
  | hidGetReport (wValue wIndex wLength : Word16)
  | unrecognized (bmRequestType bRequest : Byte) (wValue wIndex wLength : Word16)
  -- F_REPORT, the HID report codec (R88, R89)
  | hidReport (v0 v1 : WireValue)
  | hidReportDecode (v0 v1 : WireValue)
  deriving DecidableEq, Repr

/-- One instruction as its words: the format and the bits. `F_EVT` has 12 bits (R81), `F_SPI16` 16 (R83),
`F_SETUP` 64 with setup byte `k` in bits `8k+7 : 8k` (R86), `F_REPORT` 40 with report byte `k` in bits
`8k+7 : 8k` (R88). `F_CALL` has its identifier in bits 7:0 (R82) and the operands above it, DESIGN CHOICE
(log 9). The two report rows have one encoding: the direction tells them apart, `reportIn` the report the
block sends (encode), `reportOut` the one it receives (decode) (log 11, 19). -/
inductive Packet where
  | evt (w : BitVec 12)
  | call (w : BitVec 56)
  | spi16 (w : BitVec 16)
  | setup (w : BitVec 64)
  | reportIn (w : BitVec 40)
  | reportOut (w : BitVec 40)
  deriving DecidableEq, Repr

/-- Why a packet is no instruction. -/
inductive DecodeError where
  /-- An `F_CALL` identifier that R82 does not list. -/
  | unknownCall (id : Byte)
  /-- An operand byte of an `F_CALL` packet that names no callback or no cause. -/
  | badOperand (operand : Byte)
  /-- An `F_CALL` packet with a nonzero bit where the operation has no operand. -/
  | strayOperand
  /-- An `F_SPI16` word that is none of the frames of R94 under the configuration. -/
  | unknownFrame (w : BitVec 16)
  deriving DecidableEq, Repr

end Sys2Proof
end

