-- ==== Sys2Proof/Descriptors.lean ====
section
/-! DEFINITION. What the source fixes in the descriptor tables, `spec/42_usb_ep0.md` R200. The places and the codes of
the fields are those of USB 2.0 and HID 1.11, PRESUMED (log 18). -/

namespace Sys2Proof

/-- The table holds each of these bytes, `(offset, byte)`. -/
def holdsFields (d : List Byte) (l : List (Nat × Nat)) : Bool :=
  l.all fun p => d[p.1]? == some (BitVec.ofNat 8 p.2)

/-- An endpoint descriptor at `k` for this address: interrupt, 5-byte packets, 100-unit polling interval (R200). -/
def endpointOk (d : List Byte) (k address : Nat) : Bool :=
  holdsFields d
    [(k, 7), (k + 1, 5), (k + 2, address), (k + 3, 3), (k + 4, pReportLen % 256), (k + 5, pReportLen / 256),
     (k + 6, pEp1Interval)]

/-- An item of a HID report descriptor: the prefix without its size bits, and the unsigned data. -/
structure HidItem where
  tag : Byte
  data : Nat
  deriving DecidableEq, Repr

/-- The number of little-endian bytes. -/
def littleEndian : List Byte → Nat
  | [] => 0
  | b :: bs => b.toNat + 256 * littleEndian bs

/-- The short items of a report descriptor, at most as many as the first argument; none where one is cut off.
The size of the data is 0, 1, 2 or 4 by the prefix's low two bits (HID 1.11, PRESUMED, log 18). -/
def hidItems : Nat → List Byte → Option (List HidItem)
  | _, [] => some []
  | 0, _ :: _ => none
  | fuel + 1, p :: bs =>
    let size := if p &&& 3 = 3 then 4 else (p &&& 3).toNat
    if size ≤ bs.length then
      (hidItems fuel (bs.drop size)).map ({ tag := p &&& 0xFC, data := littleEndian (bs.take size) } :: ·)
    else none

/-- The global items in force at a main item. -/
structure HidGlobals where
  logicalMin : Option Nat
  logicalMax : Option Nat
  size : Option Nat
  count : Option Nat
  deriving DecidableEq, Repr

/-- What a report descriptor has, as its items are read in order. -/
structure HidSummary where
  globals : HidGlobals
  usagePages : List Nat
  /-- Collections opened, ended, and the fields with the number of collections open around each. -/
  collections : List Nat
  ended : Nat
  inputs : List (Nat × HidGlobals)
  outputs : List (Nat × HidGlobals)
  /-- An item that a table of R200 does not have: a feature field, a report ID, a push or a pop, a long item. -/
  other : Bool
  deriving DecidableEq, Repr

/-- One item read. Usages and other local items say nothing of the layout. -/
def HidSummary.read (r : HidSummary) (i : HidItem) : HidSummary :=
  let field := (r.collections.length - r.ended, r.globals)
  if i.tag = 0x04 then { r with usagePages := r.usagePages ++ [i.data] }
  else if i.tag = 0x14 then { r with globals.logicalMin := some i.data }
  else if i.tag = 0x24 then { r with globals.logicalMax := some i.data }
  else if i.tag = 0x74 then { r with globals.size := some i.data }
  else if i.tag = 0x94 then { r with globals.count := some i.data }
  else if i.tag = 0xA0 then { r with collections := r.collections ++ [i.data] }
  else if i.tag = 0xC0 then { r with ended := r.ended + 1 }
  else if i.tag = 0x80 then { r with inputs := r.inputs ++ [field] }
  else if i.tag = 0x90 then { r with outputs := r.outputs ++ [field] }
  else if i.tag ∈ [0xB0#8, 0x84#8, 0xA4#8, 0xB4#8, 0xFC#8] then { r with other := true }
  else r

/-- The items in force before the first item. -/
def HidSummary.empty : HidSummary where
  globals := { logicalMin := none, logicalMax := none, size := none, count := none }
  usagePages := []
  collections := []
  ended := 0
  inputs := []
  outputs := []
  other := false

/-- The one field of a report: inside the one collection, `P_DISPLAYS` unsigned values of `P_WIRE_BITS` bits from 0
to `P_VALUE_MAX` (R200). -/
def valueField : Nat × HidGlobals :=
  (1, { logicalMin := some 0, logicalMax := some pValueMax, size := some pWireBits, count := some pDisplays })

/-- `DESC_REPORT`: a single vendor-defined usage page (0xFF00 to 0xFFFF), one application collection with one Input
and one Output item, each of two values (R200). -/
def reportDescriptorOk (d : List Byte) : Bool :=
  match hidItems d.length d with
  | none => false
  | some items =>
    let r := items.foldl HidSummary.read .empty
    (match r.usagePages with
      | [p] => decide (0xFF00 ≤ p) && decide (p ≤ 0xFFFF)
      | _ => false) &&
    r.collections == [1] && r.ended == 1 && r.inputs == [valueField] && r.outputs == [valueField] && !r.other

end Sys2Proof
end

