-- ==== Sys2Proof/Config.lean ====
section
/-! DEFINITION. The parameters the source leaves open as one record of arguments (`spec/00_scope.md` R9), what the
spec demands of them, and the free values. The source's literals (R8) are in `Word.lean`. -/

namespace Sys2Proof

/-! ### Lengths the parameters fix -/

/-- `P_SPI_LEN_MAX`: the longest transaction, what the 8-bit remaining-length counter holds (D11, R23). -/
def pSpiLenMax : Nat := 255

/-- Bytes of the initialization sequence: five frames (`spec/41_display_keyscan.md` R141). -/
def initLen : Nat := pFrame * 5
/-- Bytes of the termination sequence: two frames (R142). -/
def termLen : Nat := pFrame * 2
/-- Bytes of the display-write sequence: a frame for each digit of each display (R143). -/
def dispLen : Nat := pFrame * (pDisplays * pDigits)
/-- Bytes of the key-read sequence: one frame (R144). -/
def keyLen : Nat := pFrame

/-! ### Names the open parameters use -/

/-- The descriptor tables (`spec/10_state.md` R43). -/
inductive DescId where
  | device
  | config
  | string0
  | string1
  | string2
  | report
  deriving DecidableEq, Repr

/-- The entry points the dispatcher invokes (`spec/60_exceptions.md` R256). -/
inductive EntryPoint where
  | spiByteComplete
  | keyIrq
  | usbTransaction
  | usbBusEvent
  | timerTick
  deriving DecidableEq, Repr

/-- A level of an output line (D12, D13). -/
inductive Level where
  | low
  | high
  deriving DecidableEq, Repr

/-- `P_KEY_GATE` (`spec/41_display_keyscan.md` R154). -/
inductive KeyGate where
  | ungated
  | gated
  deriving DecidableEq, Repr

/-- `P_SETREPORT_SINK` (`spec/42_usb_ep0.md` R195). -/
inductive SetReportSink where
  | discard
  | display
  deriving DecidableEq, Repr

/-- `P_CTL_ZLP` (`spec/42_usb_ep0.md` R178). -/
inductive CtlZlp where
  | never
  | whenShort
  deriving DecidableEq, Repr

/-- The open parameters of R9. Register addresses are 7 bits wide, so each is below 0x80 (R94). -/
structure RawConfig where
  /-- `P_CONFIG_VALUE` (D29). -/
  configValue : Byte
  /-- `P_REG_SCAN_LIMIT` (D14), and the other register addresses of R94. -/
  regScanLimit : BitVec 7
  regIntensity : BitVec 7
  regDecode : BitVec 7
  regConfig : BitVec 7
  regPortConfig : BitVec 7
  regKeyMask : BitVec 7
  regKeyDebounced : BitVec 7
  /-- `P_INIT_SCAN_LIMIT` (D14), and the other data bytes of R94. -/
  initScanLimit : Byte
  initIntensity : Byte
  initDecode : Byte
  initConfig : Byte
  initPortConfig : Byte
  termConfig : Byte
  termKeyMask : Byte
  /-- `P_DIGIT_REG(d, i)` at index `P_DIGITS * d + i` (D16). -/
  digitReg : Vector (BitVec 7) (pDisplays * pDigits)
  /-- `P_DP_POS` (D45) and `P_DP_MASK` (D17). -/
  dpPos : DigitId
  dpMask : Byte
  /-- `P_KEY_GATE` and `P_KEY_PRESSED_MASK` (D19). -/
  keyGate : KeyGate
  keyPressedMask : Byte
  /-- `P_DQ_FATAL` (D27). -/
  dqFatal : Bool
  /-- `P_SETREPORT_SINK` (D31). -/
  setReportSink : SetReportSink
  /-- `P_CTL_ZLP` (D33). -/
  ctlZlp : CtlZlp
  /-- `P_INIT_V0`, `P_INIT_V1` (D40). -/
  initV0 : StoredValue
  initV1 : StoredValue
  /-- `P_CS_ACTIVE_LEVEL` (D12), `P_INDICATOR_LEVEL` (D13). -/
  csActiveLevel : Level
  indicatorLevel : Level
  /-- `P_SIE_DTS_CHECK` (D41). -/
  sieDtsCheck : Bool
  /-- `P_DISPATCH_ORDER` (D22): the first enabled entry point of the list runs. -/
  dispatchOrder : List EntryPoint
  /-- `P_DESC_*`, the descriptor tables (D26). -/
  descDevice : List Byte
  descConfig : List Byte
  descString0 : List Byte
  descString1 : List Byte
  descString2 : List Byte
  descReport : List Byte
  /-- `P_ADDR_*`, the buffer addresses (D7, `spec/20_memory.md` R70). -/
  addrBufInit : Word16
  addrBufTerm : Word16
  addrBufDisp : Word16
  addrBufKey : Word16
  addrBufSetrep : Word16
  addrEp0Out : Word16
  addrEp0In : Word16
  addrEp1Out : Word16
  addrEp1In : Word16
  deriving DecidableEq, Repr

/-- Two address ranges `(first, length)` share no address. -/
def rangesApart (r q : Nat × Nat) : Bool :=
  decide (r.1 + r.2 ≤ q.1) || decide (q.1 + q.2 ≤ r.1)

/-- No two ranges of the list share an address. -/
def allApart : List (Nat × Nat) → Bool
  | [] => true
  | r :: rs => rs.all (rangesApart r) && allApart rs

/-- No entry of the list occurs twice. -/
def allDistinct (l : List (BitVec 7)) : Bool :=
  decide l.Nodup

namespace RawConfig

/-- The nine buffers with their lengths (`spec/10_state.md` R31, R34, R37). -/
def regions (c : RawConfig) : List (Nat × Nat) :=
  [(c.addrBufInit.toNat, initLen), (c.addrBufTerm.toNat, termLen), (c.addrBufDisp.toNat, dispLen),
   (c.addrBufKey.toNat, keyLen), (c.addrBufSetrep.toNat, pEp0Max), (c.addrEp0Out.toNat, pEp0Max),
   (c.addrEp0In.toNat, pEp0Max), (c.addrEp1Out.toNat, pReportLen), (c.addrEp1In.toNat, pReportLen)]

/-- R70: every buffer lies inside the 16-bit space and no two overlap. -/
def addressesOk (c : RawConfig) : Bool :=
  c.regions.all (fun r => decide (r.1 + r.2 ≤ 65536)) && allApart c.regions

/-- R94, D16: the twelve digit registers are distinct. D17: `P_DP_MASK` is one bit among bits 7:4. -/
def digitsOk (c : RawConfig) : Bool :=
  allDistinct c.digitReg.toList && [0x10#8, 0x20#8, 0x40#8, 0x80#8].contains c.dpMask

/-- D40: the initial display values fit the wire. -/
def valuesOk (c : RawConfig) : Bool :=
  decide (c.initV0.toNat < 2 ^ pWireBits) && decide (c.initV1.toNat < 2 ^ pWireBits)

/-- D22: every entry point has its place in the dispatcher's order. -/
def dispatchOk (c : RawConfig) : Bool :=
  [EntryPoint.spiByteComplete, .keyIrq, .usbTransaction, .usbBusEvent, .timerTick].all
    c.dispatchOrder.contains

/-- D11: the transactions of the driver fit the remaining-length counter. -/
def lengthsOk : Bool :=
  [initLen, termLen, dispLen, keyLen].all fun n => decide (n ≤ pSpiLenMax)

/-- `DESC_DEVICE`: the Endpoint 0 packet size, the manufacturer and product string indices, the number of
configurations (`spec/42_usb_ep0.md` R200). -/
def deviceDescriptorOk (c : RawConfig) : Bool :=
  decide (c.descDevice.length = 18) &&
  holdsFields c.descDevice [(7, pEp0Max), (14, 1), (15, 2), (17, pNumConfig)]

/-- `DESC_CONFIG`: one buffer of a configuration, an interface, a HID and two endpoint descriptors; the number of
interfaces, the configuration value, two endpoints, the class HID; Endpoint 1 IN and OUT in either order (R200). -/
def configDescriptorOk (c : RawConfig) : Bool :=
  decide (c.descConfig.length = 41) &&
  holdsFields c.descConfig
    [(0, 9), (1, 2), (4, pNumInterface), (5, c.configValue.toNat),
     (9, 9), (10, 4), (13, 2), (14, 3),
     (18, 9), (19, 0x21)] &&
  ((endpointOk c.descConfig 27 0x81 && endpointOk c.descConfig 34 0x01) ||
   (endpointOk c.descConfig 27 0x01 && endpointOk c.descConfig 34 0x81))

/-- The descriptor fields the source fixes (R200), at the places and with the codes of USB 2.0 and HID 1.11,
PRESUMED (log 18). -/
def descriptorsOk (c : RawConfig) : Bool :=
  c.deviceDescriptorOk && c.configDescriptorOk && reportDescriptorOk c.descReport

/-- Everything the spec demands of the open parameters. -/
def admissible (c : RawConfig) : Bool :=
  c.addressesOk && c.digitsOk && c.valuesOk && c.dispatchOk && lengthsOk && c.descriptorsOk

end RawConfig

/-- A configuration: the open parameters of R9, admissible. "A model takes as arguments" the parameters
(R9), so they stand in the state, where no step writes them (log 1). -/
structure Config extends RawConfig where
  admissible : toRawConfig.admissible = true
  deriving DecidableEq, Repr

namespace Config

/-- `ROM[t]` (`spec/10_state.md` R43, `spec/20_memory.md` R60). -/
def rom (c : Config) : DescId → List Byte
  | .device => c.descDevice
  | .config => c.descConfig
  | .string0 => c.descString0
  | .string1 => c.descString1
  | .string2 => c.descString2
  | .report => c.descReport

/-- The index of a digit register is inside the table. -/
theorem digitIndex_lt (d : DisplayId) (i : DigitId) : pDigits * d.val + i.val < pDisplays * pDigits := by
  have h := Nat.mul_le_mul_left pDigits (Nat.succ_le_of_lt d.isLt)
  rw [Nat.mul_succ, Nat.mul_comm pDigits pDisplays] at h
  exact lt_of_lt_of_le (Nat.add_lt_add_left i.isLt _) h

/-- `P_DIGIT_REG(d, i)` (R94). -/
def digitRegister (c : Config) (d : DisplayId) (i : DigitId) : BitVec 7 :=
  c.digitReg[pDigits * d.val + i.val]'(digitIndex_lt d i)

/-- A byte of memory nothing has written (`spec/10_state.md` R53): a FREE VALUE, the `n`-th draw. Nothing
constrains it (log 3, 25). -/
opaque freeByte : Nat → BitVec 8

/-- A digit nibble of a value above `P_VALUE_MAX` (`spec/41_display_keyscan.md` R151): a FREE VALUE, the
`n`-th draw in 0..15. Nothing constrains it (log 4, 25). -/
opaque freeNibble : Nat → BitVec 4

/-- The parameters `State.reset` has: DESIGN CHOICE (log 2). Where the spec recommends a value
(`spec/92_eei_decisions.md`) or its test configuration T gives one (`spec/95_test_vectors.md`), that one. -/
def defaultRaw : RawConfig where
  configValue := 0x01
  regScanLimit := 0x10
  regIntensity := 0x11
  regDecode := 0x12
  regConfig := 0x13
  regPortConfig := 0x14
  regKeyMask := 0x15
  regKeyDebounced := 0x00
  initScanLimit := 0x05
  initIntensity := 0x08
  initDecode := 0xFF
  initConfig := 0x01
  initPortConfig := 0x21
  termConfig := 0x00
  termKeyMask := 0x00
  digitReg := #v[0x20, 0x21, 0x22, 0x23, 0x24, 0x25, 0x28, 0x29, 0x2A, 0x2B, 0x2C, 0x2D]
  dpPos := 2
  dpMask := 0x80
  keyGate := .ungated
  keyPressedMask := 0x01
  dqFatal := false
  setReportSink := .discard
  ctlZlp := .whenShort
  initV0 := 0
  initV1 := 0
  csActiveLevel := .low
  indicatorLevel := .high
  sieDtsCheck := false
  dispatchOrder := [.spiByteComplete, .keyIrq, .usbTransaction, .usbBusEvent, .timerTick]
  descDevice :=
    [0x12, 0x01, 0x00, 0x02, 0x00, 0x00, 0x00, 0x20, 0x00, 0x00, 0x00, 0x00, 0x00, 0x00, 0x01, 0x02, 0x00, 0x01]
  descConfig :=
    [0x09, 0x02, 0x29, 0x00, 0x01, 0x01, 0x00, 0x80, 0x32, 0x09, 0x04, 0x00, 0x00, 0x02, 0x03, 0x00, 0x00, 0x00,
     0x09, 0x21, 0x11, 0x01, 0x00, 0x01, 0x22, 0x1B, 0x00,
     0x07, 0x05, 0x81, 0x03, 0x05, 0x00, 0x64, 0x07, 0x05, 0x01, 0x03, 0x05, 0x00, 0x64]
  descString0 := [0x04, 0x03, 0x09, 0x04]
  descString1 := [0x04, 0x03, 0x56, 0x00]
  descString2 := [0x04, 0x03, 0x50, 0x00]
  descReport :=
    [0x06, 0x00, 0xFF, 0x09, 0x01, 0xA1, 0x01, 0x15, 0x00, 0x27, 0x3F, 0x42, 0x0F, 0x00, 0x75, 0x14, 0x95, 0x02,
     0x09, 0x02, 0x81, 0x02, 0x09, 0x03, 0x91, 0x02, 0xC0]
  addrBufInit := 0x0100
  addrBufTerm := 0x0110
  addrBufDisp := 0x0120
  addrBufKey := 0x0140
  addrBufSetrep := 0x0150
  addrEp0Out := 0x0400
  addrEp0In := 0x0420
  addrEp1Out := 0x0440
  addrEp1In := 0x0448

/-- The configuration of `State.reset` (log 2). -/
def default : Config where
  toRawConfig := defaultRaw
  admissible := by decide

end Config

end Sys2Proof
end

