-- ==== Sys2Proof/Machine/State.lean ====
section
/-! DEFINITION. The state of the block, `spec/10_state.md`, as plain data, the ways a step can stop, and the
state right after reset (`spec/70_reset_and_hazards.md` R291). -/

namespace Sys2Proof.Machine

open Sys2Proof

/-! ### Buffer descriptors, R36 -/

/-- The four buffer descriptors. -/
inductive BdId where
  | ep0Out
  | ep0In
  | ep1Out
  | ep1In
  deriving DecidableEq, Repr

/-- The two endpoints of the host's tokens. -/
inductive Endpoint where
  | ep0
  | ep1
  deriving DecidableEq, Repr

/-- A direction, `Dir` of R41. -/
inductive Dir where
  | out
  | inn
  deriving DecidableEq, Repr

/-- The owner of a buffer descriptor: CPU or SIE. -/
inductive Owner where
  | cpu
  | sie
  deriving DecidableEq, Repr

/-- The token of a completed transaction. -/
inductive Pid where
  | setup
  | out
  | inn
  deriving DecidableEq, Repr

/-- A buffer descriptor, R36 and R96. Its bit layout in memory is not fixed by the spec (D44). -/
structure BufferDescriptor where
  own : Owner
  dts : Toggle
  cnt : BitVec 10
  adr : Word16
  stall : Bool
  pid : Pid
  deriving DecidableEq, Repr

/-! ### Control transfers, R34 -/

/-- The direction of the control transfer in progress. -/
inductive CtlDir where
  | none
  | h2d
  | d2h
  deriving DecidableEq, Repr

/-- The status-stage transaction outstanding. -/
inductive CtlStatus where
  | none
  | statusIn
  | statusOut
  deriving DecidableEq, Repr

/-- The control stage of R35; `SetupReceived` and `StatusOnly` exist only inside a step. -/
inductive Stage where
  | idle
  | dataStageWrite
  | dataStageRead
  | statusStage
  deriving DecidableEq, Repr

/-! ### Faults recorded and events emitted, R38, R42 -/

/-- A recorded cause: of the fatal signal (R251) or of a model fault (R253). -/
inductive Cause where
  | fatal (c : FatalCause)
  | model (c : ModelCause)
  deriving DecidableEq, Repr

/-- The events of the output trace (R38). -/
inductive Event where
  | cs (asserted : Bool)
  | tx (b : Byte)
  | rx (b : Byte)
  | keyIe (on : Bool)
  | fatal (c : FatalCause)
  | modelFault (c : ModelCause)
  | arm (e : BdId) (cnt : BitVec 10) (dts : Toggle)
  | stall (e : BdId)
  | reclaim (e : BdId)
  | addr (a : BitVec 7)
  | ep1Enable (on : Bool)
  deriving DecidableEq, Repr

/-- What the HOST sees at a token it sends (R47 to R49, R255). The model's own observation (log 16). -/
inductive HostEvent where
  /-- An IN token answered with data and its toggle (R48). -/
  | data (e : BdId) (dts : Toggle) (bytes : List Byte)
  /-- A SETUP or OUT packet taken (R47), or taken and dropped under `P_SIE_DTS_CHECK`. -/
  | ack (e : BdId)
  /-- A CPU-owned descriptor: NAK (R49). -/
  | nak (e : BdId)
  /-- A stalled descriptor: STALL (R49). -/
  | stall (e : BdId)
  deriving DecidableEq, Repr

/-! ### What happens next -/

/-- A step of an external agent with the draws it makes (R46 to R51). -/
inductive AgentStep where
  /-- SHIFTER: the exchange in progress completes, the chip answering `rx` (R46). -/
  | shifter (rx : Byte)
  /-- HOST and SIE: a SETUP token with its data packet on Endpoint 0 (R47). -/
  | hostSetup (bytes : List Byte)
  /-- HOST and SIE: an OUT token with a data packet of this toggle (R47). -/
  | hostOut (ep : Endpoint) (toggle : Toggle) (bytes : List Byte)
  /-- HOST and SIE: an IN token (R48). -/
  | hostIn (ep : Endpoint)
  /-- KEY SOURCE: the edge of the chip's interrupt output (R50). -/
  | keyEdge
  /-- HOST: a bus reset (R51). -/
  | busReset
  /-- HOST: any other bus event (R51). -/
  | busOther
  /-- The out-of-scope blink timer sets its flag (R40, R266). -/
  | timerTick
  deriving DecidableEq, Repr

/-- One entry of the schedule: an agent's step, the dispatcher running an enabled entry point, or a packet
the CORE runs as its next step (log 5). -/
inductive Input where
  | agent (a : AgentStep)
  | dispatch
  | packet (p : Packet)
  deriving DecidableEq, Repr

/-! ### How a step can stop -/

/-- A step that does not exist: the CORE or the SIE is stuck (`spec/93_implementation_defined.md` I11). -/
inductive Fault where
  /-- `MemRead` or `MemWrite` past address 2^16 - 1 (`spec/20_memory.md` R61, R62). Raised by the accesses at
  an address taken from the state; R70 keeps it from every run from reset. Safe: the machine stops. -/
  | addressPastTop
  /-- `MemRead` of a descriptor table past its end (R61). Raised by `SendChunk` from a control-transfer state
  no run reaches. Safe: the machine stops. -/
  | romPastEnd
  deriving DecidableEq, Repr

/-- Why an instruction has no meaning. -/
inductive Refusal where
  /-- Raised by an arm of `exec` whose instruction has no meaning yet; no arm does. Safe. -/
  | notModelled (mnemonic : String)
  /-- `REFUSED_EVENT`: an event word the dispatcher never produces (`spec/60_exceptions.md` R254). Raised by
  `EV_USB_BAD_KIND` and `EV_REFUSED`. Safe: the spec refuses it by name. -/
  | refusedEvent
  /-- The packet the schedule holds next is no instruction. Raised by `step` only. Safe. -/
  | undecodable (e : DecodeError)
  /-- The HOST's packet breaks the laws of `spec/10_state.md` R47 (a SETUP of other than 8 bytes, an OUT
  longer than the armed count). Raised by `agentStep` only. Safe (log 15). -/
  | unlawfulHostPacket
  deriving DecidableEq, Repr

/-! ### The state -/

/-- The core data memory: the bytes some step has written, addresses strictly rising. An unlisted address
holds no value (`spec/10_state.md` R53) (log 3). -/
abbrev Memory := List Host.Cell

/-- The device context (`spec/10_state.md` R20), one field for each piece of state of R21 to R43, and the
model's own fields last. -/
structure State where
  /-- The open parameters (R9). No step writes it (log 1). -/
  cfg : Config
  -- The SPI engine, R21 to R27
  spiActive : Bool
  spiPtr : Word16
  spiRemaining : Byte
  spiCallback : Callback
  spiCs : Bool
  shBusy : Bool
  shTx : Byte
  shRx : Byte
  shRxFull : Bool
  -- The display, R28 to R30
  value0 : StoredValue
  value1 : StoredValue
  dpPos : DigitId
  keyIe : Bool
  keyIf : Bool
  -- The USB device and the control transfer, R32 to R34
  usbAddr : BitVec 7
  pendAddr : Option (BitVec 7)
  configured : Bool
  ctlDir : CtlDir
  ctlSrcTable : DescId
  ctlSrcOff : Word16
  ctlDst : Word16
  ctlRemaining : Word16
  ctlToggle : Toggle
  ctlZlp : Bool
  ctlStatus : CtlStatus
  -- The buffer descriptors, R36
  bdEp0Out : BufferDescriptor
  bdEp0In : BufferDescriptor
  bdEp1Out : BufferDescriptor
  bdEp1In : BufferDescriptor
  -- Endpoint 1, R39
  ep1Enabled : Bool
  ep1OutDts : Toggle
  ep1InDts : Toggle
  -- Condition flags and the completion queue, R40, R41
  spiIf : Bool
  busResetIf : Bool
  busOtherIf : Bool
  timerIf : Bool
  /-- Endpoint number (4 bits, as `F_EVT` has it, R81) and direction, oldest first (log 21). -/
  trnFifo : List (BitVec 4 × Dir)
  -- The fatal signal, the fault record, the trace, R42, R38
  fatal : Bool
  faults : List Cause
  trace : List Event
  -- Core data memory, R60
  ram : Memory
  -- The model's own fields
  /-- How many draws were made: the index of the next free value (log 25). -/
  draws : Nat
  /-- What the HOST saw, oldest first (log 16). -/
  hostLog : List HostEvent
  /-- What the agents, the dispatcher and the script do next (log 5). -/
  inputs : List Input
  deriving DecidableEq, Repr

namespace State

/-- A descriptor with the values of R52. -/
def idleBd (adr : Word16) : BufferDescriptor :=
  { own := .cpu, dts := 0, cnt := 0, adr := adr, stall := false, pid := .out }

/-- Every piece of state at the value of R52, before the reset sequence. -/
def powerOn (c : Config) : State where
  cfg := c
  spiActive := false
  spiPtr := 0
  spiRemaining := 0
  spiCallback := .none
  spiCs := false
  shBusy := false
  shTx := 0
  shRx := 0
  shRxFull := false
  value0 := c.initV0
  value1 := c.initV1
  dpPos := c.dpPos
  keyIe := false
  keyIf := false
  usbAddr := 0
  pendAddr := none
  configured := false
  ctlDir := .none
  ctlSrcTable := .device
  ctlSrcOff := 0
  ctlDst := 0
  ctlRemaining := 0
  ctlToggle := 0
  ctlZlp := false
  ctlStatus := .none
  bdEp0Out := idleBd c.addrEp0Out
  bdEp0In := idleBd c.addrEp0In
  bdEp1Out := idleBd c.addrEp1Out
  bdEp1In := idleBd c.addrEp1In
  ep1Enabled := false
  ep1OutDts := 0
  ep1InDts := 0
  spiIf := false
  busResetIf := false
  busOtherIf := false
  timerIf := false
  trnFifo := []
  fatal := false
  faults := []
  trace := []
  ram := []
  draws := 0
  hostLog := []
  inputs := []

/-- The state right after power-on reset under configuration `c` (R291): R52, then `EP0_OUT` armed for a
packet of `P_EP0_MAX` bytes with toggle 0. -/
def resetWith (c : Config) : State :=
  { powerOn c with
    bdEp0Out := { idleBd c.addrEp0Out with own := .sie, cnt := BitVec.ofNat 10 pEp0Max }
    trace := [.arm .ep0Out (BitVec.ofNat 10 pEp0Max) 0] }

/-- The state right after reset, under the default configuration (log 2). -/
def reset : State := resetWith Config.default

end State

end Sys2Proof.Machine
end

