-- ==== Sys2Proof/Machine/Ops.lean ====
section
/-! DEFINITION. The named operations over the state: memory (`spec/20_memory.md`), the trace, the fatal
signal and the model faults (`spec/60_exceptions.md` R250, R253), the buffer-descriptor primitives
(`spec/10_state.md` R36) and the shifter primitives (R27). -/

namespace Sys2Proof.Machine

open Sys2Proof

/-! ### Memory as data -/

namespace Memory

/-- The byte at an address: none where no step has written (R53). -/
def read? : Memory → Nat → Option Byte
  | [], _ => none
  | (x, y) :: m, a => if x = a then some y else read? m a

/-- Writes one byte, keeping the addresses rising. -/
def set : Memory → Nat → Byte → Memory
  | [], a, b => [(a, b)]
  | (x, y) :: m, a, b =>
    if a < x then (a, b) :: (x, y) :: m
    else if a = x then (a, b) :: m
    else (x, y) :: set m a b

/-- Writes the bytes at `a`, `a + 1`, … in that order (R62). -/
def setAll : Memory → Nat → List Byte → Memory
  | m, _, [] => m
  | m, a, b :: bs => setAll (set m a b) (a + 1) bs

/-- The addresses are strictly rising, from above `lo`, and below 2^16. -/
def risingFrom : Nat → Memory → Bool
  | _, [] => true
  | lo, (x, _) :: m => decide (lo ≤ x) && decide (x < 65536) && risingFrom (x + 1) m

/-- The canonical form: addresses strictly rising, inside the 16-bit space. An unlisted address holds no
value, so no entry equals what an unlisted address reads as. -/
def wf (m : Memory) : Bool := risingFrom 0 m

end Memory

/-! ### Accessors -/

namespace State

/-- `value[d]` (R28). -/
def value (s : State) (d : DisplayId) : StoredValue :=
  if d = 0 then s.value0 else s.value1

/-- `BD[e]` (R36). -/
def bd (s : State) : BdId → BufferDescriptor
  | .ep0Out => s.bdEp0Out
  | .ep0In => s.bdEp0In
  | .ep1Out => s.bdEp1Out
  | .ep1In => s.bdEp1In

/-- Replaces `BD[e]`. -/
def setBd (e : BdId) (b : BufferDescriptor) (s : State) : State :=
  match e with
  | .ep0Out => { s with bdEp0Out := b }
  | .ep0In => { s with bdEp0In := b }
  | .ep1Out => { s with bdEp1Out := b }
  | .ep1In => { s with bdEp1In := b }

end State

/-- The endpoint buffer of `BD[e]`, first address and length (R37). -/
def epBuffer (c : Config) : BdId → Nat × Nat
  | .ep0Out => (c.addrEp0Out.toNat, pEp0Max)
  | .ep0In => (c.addrEp0In.toNat, pEp0Max)
  | .ep1Out => (c.addrEp1Out.toNat, pReportLen)
  | .ep1In => (c.addrEp1In.toNat, pReportLen)

/-! ### Trace and faults -/

/-- `emit E` (R12, R38). -/
def emit (e : Event) (s : State) : State := { s with trace := s.trace ++ [e] }

/-- The fatal-error signal, R250. It is the block's only exception: nothing is saved, nothing is entered and
nothing returns (R258, R268); the rule that raised it goes on (R252). -/
def raiseFatal (c : FatalCause) (s : State) : State :=
  emit (.fatal c) { s with fatal := true, faults := s.faults ++ [.fatal c] }

/-- A model fault, R253: recorded, `fatal` not written. -/
def raiseModelFault (c : ModelCause) (s : State) : State :=
  emit (.modelFault c) { s with faults := s.faults ++ [.model c] }

/-- Raises a cause. -/
def raise : Cause → State → State
  | .fatal c, s => raiseFatal c s
  | .model c, s => raiseModelFault c s

/-- Raises every cause of the list, in its order (D10, R267). -/
def raiseAll : List Cause → State → State
  | [], s => s
  | c :: cs, s => raiseAll cs (raise c s)

/-! ### Core memory accesses -/

/-- Some byte of `a .. a+n-1` holds no value. -/
def touchesUnwritten (m : Memory) (a n : Nat) : Bool :=
  (List.range n).any fun k => (m.read? (a + k)).isNone

/-- The bytes a read of `a .. a+n-1` returns: a byte without a value reads as a draw (R53), the free value
of its own index (log 3, 25). -/
def readBytes (s : State) (a n : Nat) : List Byte :=
  (List.range n).map fun k => (s.ram.read? (a + k)).getD (Config.freeByte (s.draws + k))

/-- What any read of `a .. a+n-1` leaves: one `UNWRITTEN_READ` where a byte holds no value, before any later
effect (R53), and the draws counted. -/
def afterRead (a n : Nat) (s : State) : State :=
  if touchesUnwritten s.ram a n then { raiseModelFault .unwrittenRead s with draws := s.draws + n } else s

/-- The SIE owns a descriptor whose buffer shares an address with `a .. a+n-1` (R73). -/
def sieOwnsRange (s : State) (a n : Nat) : Bool :=
  decide (n ≠ 0) && [BdId.ep0Out, .ep0In, .ep1Out, .ep1In].any fun e =>
    (s.bd e).own == .sie && !rangesApart (epBuffer s.cfg e) (a, n)

/-- What a CORE read of `a .. a+n-1` leaves. A read that touches an SIE-owned buffer is the model fault `BD_OWNERSHIP`
(R301), recorded before an `UNWRITTEN_READ`; the bytes are those of `readBytes` all the same (R61) (log 12). -/
def afterCoreRead (a n : Nat) (s : State) : State :=
  afterRead a n (if sieOwnsRange s a n then raiseModelFault .bdOwnership s else s)

/-- A CORE read of a field of `BD[e]` other than `own`: the model fault `BD_OWNERSHIP` while the SIE owns it (R36,
R301); the field's value is read all the same (log 12). -/
def readField (e : BdId) (s : State) : State :=
  if (s.bd e).own = .sie then raiseModelFault .bdOwnership s else s

/-- A CORE write of the bytes at `a`, …. A write to an SIE-owned buffer is the model fault `BD_OWNERSHIP` and
changes nothing (R73, R301, D8) (log 12). -/
def coreWrite (a : Nat) (bs : List Byte) (s : State) : State :=
  if sieOwnsRange s a bs.length then raiseModelFault .bdOwnership s
  else { s with ram := s.ram.setAll a bs }

/-- `MemWrite(a, n, d)` by the CORE at an address taken from the state: stuck past 2^16 (R62, I11). -/
def memWrite (a : Nat) (bs : List Byte) (s : State) : Except Fault State :=
  if a + bs.length ≤ 65536 then .ok (coreWrite a bs s) else .error .addressPastTop

/-- `MemRead(a, n)` by the CORE at an address taken from the state: the bytes and the state after the read; stuck past
2^16 (R61, I11). -/
def memRead (a n : Nat) (s : State) : Except Fault (List Byte × State) :=
  if a + n ≤ 65536 then .ok (readBytes s a n, afterCoreRead a n s) else .error .addressPastTop

/-- `MemRead` of descriptor table `t`, bytes `k .. k+n-1`: stuck past its end (R61). -/
def romRead (c : Config) (t : DescId) (k n : Nat) : Except Fault (List Byte) :=
  if k + n ≤ (c.rom t).length then .ok (((c.rom t).drop k).take n) else .error .romPastEnd

/-! ### Chip-select, key enable and shifter, R26, R27, R30 -/

/-- Writes `spi_cs` and emits it. -/
def setCs (b : Bool) (s : State) : State := emit (.cs b) { s with spiCs := b }

/-- Writes `key_ie` and emits it. -/
def setKeyIe (b : Bool) (s : State) : State := emit (.keyIe b) { s with keyIe := b }

/-- `ShifterWrite(b)` (R27). -/
def shifterWrite (b : Byte) (s : State) : State := emit (.tx b) { s with shTx := b, shBusy := true }

/-- What `ShifterRead()` leaves; it returns `sh_rx` (R27). -/
def afterShifterRead (s : State) : State := emit (.rx s.shRx) { s with shRxFull := false }

/-- The electrical level of chip-select: `P_CS_ACTIVE_LEVEL` when asserted (R26, D12). -/
def csLevel (s : State) : Level :=
  match s.spiCs, s.cfg.csActiveLevel with
  | true, l => l
  | false, .low => .high
  | false, .high => .low

/-- The level of the fault indicator: `P_INDICATOR_LEVEL` until the fatal signal, then the other level (R42,
D13). -/
def indicatorLevel (s : State) : Level :=
  match s.fatal, s.cfg.indicatorLevel with
  | false, l => l
  | true, .low => .high
  | true, .high => .low

/-! ### Buffer-descriptor primitives, R36 -/

/-- `Arm(e, adr, cnt, dts)`: the fields, then the ownership (R300). Arming an SIE-owned descriptor is the
model fault `BD_OWNERSHIP` and changes nothing (R301, R253, D8) (log 12). -/
def arm (e : BdId) (adr : Word16) (cnt : BitVec 10) (dts : Toggle) (s : State) : State :=
  if (s.bd e).own = .sie then raiseModelFault .bdOwnership s
  else emit (.arm e cnt dts)
    (s.setBd e { s.bd e with adr := adr, cnt := cnt, dts := dts, stall := false, own := .sie })

/-- `Stall(e)`: guarded as `arm` (log 12). -/
def stall (e : BdId) (s : State) : State :=
  if (s.bd e).own = .sie then raiseModelFault .bdOwnership s
  else emit (.stall e) (s.setBd e { s.bd e with stall := true, own := .sie })

/-- `Reclaim(e)`: the one write the CORE makes to an SIE-owned descriptor (R36). -/
def reclaim (e : BdId) (s : State) : State :=
  emit (.reclaim e) (s.setBd e { s.bd e with own := .cpu, stall := false })

/-- `if BD[e].own = SIE then Reclaim(e)`. -/
def reclaimIfArmed (e : BdId) (s : State) : State :=
  if (s.bd e).own = .sie then reclaim e s else s

/-! ### Outcomes -/

/-- The outcome of a rule that may be stuck. -/
def outcome : Except Fault State → Host.Outcome State Fault Refusal
  | .ok s => .next s
  | .error f => .fault f

end Sys2Proof.Machine
end

