-- ==== Sys2Proof/Machine/Flags.lean ====
section
/-! DEFINITION. The condition flags, what enables an entry point (`spec/10_state.md` R40,
`spec/60_exceptions.md` R256), and the control stage (R35). -/

namespace Sys2Proof.Machine

open Sys2Proof

/-- `usb_trn_if`: derived from the queue (R40). -/
def usbTrnIf (s : State) : Bool := !s.trnFifo.isEmpty

/-- The condition under which the dispatcher may invoke an entry point (R256). -/
def enabled (s : State) : EntryPoint → Bool
  | .spiByteComplete => s.spiIf
  | .keyIrq => s.keyIf && s.keyIe
  | .usbTransaction => usbTrnIf s
  | .usbBusEvent => s.busResetIf || s.busOtherIf
  | .timerTick => s.timerIf

/-- The oldest completion is this one. -/
def headIs (ep : BitVec 4) (d : Dir) (s : State) : Bool := s.trnFifo.head? == some (ep, d)

/-- The queue without its oldest entry (R259). -/
def popTrn (s : State) : State := { s with trnFifo := s.trnFifo.tail }

/-- The control stage (R35). -/
def stage (s : State) : Stage :=
  match s.ctlDir with
  | .h2d => .dataStageWrite
  | .d2h => .dataStageRead
  | .none => if s.ctlStatus = .none then .idle else .statusStage

end Sys2Proof.Machine
end

