-- ==== Sys2Proof/Machine/Agents.lean ====
section
/-! DEFINITION. The external agents at the interface, `spec/10_state.md` R46 to R51. Their draws are the
arguments of the step (log 5). A step R46 does not enable changes nothing (log 7). -/

namespace Sys2Proof.Machine

open Sys2Proof

/-- The OUT descriptor of an endpoint. -/
def outBd : Endpoint → BdId
  | .ep0 => .ep0Out
  | .ep1 => .ep1Out

/-- The IN descriptor of an endpoint. -/
def inBd : Endpoint → BdId
  | .ep0 => .ep0In
  | .ep1 => .ep1In

/-- `ep(e)`: the endpoint number in the completion queue (R41). -/
def epNumber : Endpoint → BitVec 4
  | .ep0 => 0
  | .ep1 => 1

/-- The HOST sees an answer (log 16). -/
def hostSees (h : HostEvent) (s : State) : State := { s with hostLog := s.hostLog ++ [h] }

/-- The SIE completes an OUT-direction transaction: data, count and token before the ownership (R47, D41). -/
def completeOut (ep : Endpoint) (p : Pid) (bytes : List Byte) (s : State) : State :=
  let b := s.bd (outBd ep)
  let w := { s with ram := s.ram.setAll b.adr.toNat bytes, trnFifo := s.trnFifo ++ [(epNumber ep, Dir.out)] }
  w.setBd (outBd ep) { b with cnt := BitVec.ofNat 10 bytes.length, pid := p, own := .cpu }

/-- The SIE completes an IN-direction transaction: the HOST reads the armed bytes (R48). -/
def completeIn (ep : Endpoint) (s : State) : State :=
  let b := s.bd (inBd ep)
  let r := afterRead b.adr.toNat b.cnt.toNat (hostSees (.data (inBd ep) b.dts (readBytes s b.adr.toNat b.cnt.toNat)) s)
  let w := { r with trnFifo := r.trnFifo ++ [(epNumber ep, Dir.inn)] }
  w.setBd (inBd ep) { b with pid := .inn, own := .cpu }

/-- The packet `bytes` of token `p` at an armed OUT descriptor: refused if it breaks the laws of R47; stuck
past address 2^16. -/
def takeOut (ep : Endpoint) (p : Pid) (lawful : Bool) (bytes : List Byte) (s : State) :
    Host.Outcome State Fault Refusal :=
  if lawful = false then .refused .unlawfulHostPacket
  else if (s.bd (outBd ep)).adr.toNat + bytes.length ≤ 65536 then
    .next (hostSees (.ack (outBd ep)) (completeOut ep p bytes s))
  else .fault .addressPastTop

/-- The SHIFTER's completion (R46). -/
def shifterStep (rx : Byte) (s : State) : State :=
  if s.shBusy = true then { s with shRx := rx, shRxFull := true, shBusy := false, spiIf := true } else s

/-- A SETUP token with its data packet: 8 bytes (R47, D55). -/
def hostSetupStep (bytes : List Byte) (s : State) : Host.Outcome State Fault Refusal :=
  if s.bdEp0Out.own = .cpu then .next (hostSees (.nak .ep0Out) s)
  else if s.bdEp0Out.stall = true then .next (hostSees (.stall .ep0Out) s)
  else takeOut .ep0 .setup (decide (bytes.length = 8)) bytes s

/-- An OUT token with its data packet, at most `cnt` bytes (R47). With `P_SIE_DTS_CHECK` a packet of the other
toggle is dropped (D41, log 22). -/
def hostOutStep (ep : Endpoint) (toggle : Toggle) (bytes : List Byte) (s : State) :
    Host.Outcome State Fault Refusal :=
  let b := s.bd (outBd ep)
  if b.own = .cpu then .next (hostSees (.nak (outBd ep)) s)
  else if b.stall = true then .next (hostSees (.stall (outBd ep)) s)
  else if s.cfg.sieDtsCheck = true ∧ toggle ≠ b.dts then .next (hostSees (.ack (outBd ep)) s)
  else takeOut ep .out (decide (bytes.length ≤ b.cnt.toNat)) bytes s

/-- An IN token (R48, R49). -/
def hostInStep (ep : Endpoint) (s : State) : Host.Outcome State Fault Refusal :=
  let b := s.bd (inBd ep)
  if b.own = .cpu then .next (hostSees (.nak (inBd ep)) s)
  else if b.stall = true then .next (hostSees (.stall (inBd ep)) s)
  else if b.adr.toNat + b.cnt.toNat ≤ 65536 then .next (completeIn ep s)
  else .fault .addressPastTop

/-- One step of an external agent. -/
def agentStep (a : AgentStep) (s : State) : Host.Outcome State Fault Refusal :=
  match a with
  | .shifter rx => .next (shifterStep rx s)
  | .hostSetup bytes => hostSetupStep bytes s
  | .hostOut ep toggle bytes => hostOutStep ep toggle bytes s
  | .hostIn ep => hostInStep ep s
  | .keyEdge => .next { s with keyIf := true }
  | .busReset => .next { s with busResetIf := true }
  | .busOther => .next { s with busOtherIf := true }
  | .timerTick => .next { s with timerIf := true }

end Sys2Proof.Machine
end

