-- ==== Sys2Proof/Decode.lean ====
section
/-! DEFINITION. The decoder and the encoder of the five formats of `spec/30_encoding.md` R80, the setup
packet's fields (R86, R93), and the numbering of `spec/opcode_table.json`. -/

namespace Sys2Proof

/-! ### Enumerations as numbers -/

/-- A token's `kind` in an event word: OUT 0001, IN 1001, SETUP 1101 (R81). -/
def kindOut : BitVec 4 := 0b0001
/-- See `kindOut`. -/
def kindIn : BitVec 4 := 0b1001
/-- See `kindOut`. -/
def kindSetup : BitVec 4 := 0b1101

/-- The operand byte of a callback: its place in R25's enumeration (log 9). -/
def Callback.toByte : Callback → Byte
  | .none => 0
  | .initDone => 1
  | .keyReadDone => 2

/-- The callback an operand byte names. -/
def Callback.ofByte? (b : Byte) : Option Callback :=
  if b = 0 then some .none else if b = 1 then some .initDone else if b = 2 then some .keyReadDone else none

/-- The cause's code, `spec/60_exceptions.md` R251. -/
def FatalCause.code : FatalCause → Nat
  | .spiBusy => 1
  | .spiStaleRx => 2
  | .spiZeroLength => 3
  | .unrecognizedRequest => 4
  | .unsupportedDescriptor => 5
  | .badSetAddress => 6
  | .badConfiguration => 7
  | .unsupportedReportType => 8
  | .unimplementedGetReport => 9
  | .nondefaultAltSetting => 10
  | .deviceQualifier => 11

/-- The causes in the order of R251. -/
def FatalCause.all : List FatalCause :=
  [.spiBusy, .spiStaleRx, .spiZeroLength, .unrecognizedRequest, .unsupportedDescriptor, .badSetAddress,
   .badConfiguration, .unsupportedReportType, .unimplementedGetReport, .nondefaultAltSetting, .deviceQualifier]

/-- The cause's code, `spec/60_exceptions.md` R253. -/
def ModelCause.code : ModelCause → Nat
  | .spiOddLength => 101
  | .spiSpurious => 102
  | .bdOwnership => 103
  | .unwrittenRead => 104
  | .ep1InOverrun => 105

/-- The causes in the order of R253. -/
def ModelCause.all : List ModelCause :=
  [.spiOddLength, .spiSpurious, .bdOwnership, .unwrittenRead, .ep1InOverrun]

/-- The operand byte of a fatal cause: its place in R251's table, from 0 (log 9). -/
def FatalCause.toByte (c : FatalCause) : Byte := BitVec.ofNat 8 (c.code - 1)

/-- The fatal cause an operand byte names. -/
def FatalCause.ofByte? (b : Byte) : Option FatalCause := FatalCause.all[b.toNat]?

/-- The operand byte of a model fault's cause: its place in R253's table, from 0 (log 9). -/
def ModelCause.toByte (c : ModelCause) : Byte := BitVec.ofNat 8 (c.code - 101)

/-- The model fault's cause an operand byte names. -/
def ModelCause.ofByte? (b : Byte) : Option ModelCause := ModelCause.all[b.toNat]?

/-! ### Event words, R81 and R97 -/

/-- `F_EVT` from its fields (R81). -/
def evtWord (src : BitVec 3) (ep : BitVec 4) (dir : BitVec 1) (kind : BitVec 4) : BitVec 12 :=
  src ++ ep ++ dir ++ kind

/-- Decodes an event word: the rows of the opcode table in its order, the exact words first. -/
def decodeEvt (w : BitVec 12) : Instr :=
  let src := w.extractLsb' 9 3
  let ep := w.extractLsb' 5 4
  let dir := w.extractLsb' 4 1
  let kind := w.extractLsb' 0 4
  if w = 0x000#12 then .evSpiByteComplete
  else if w = 0x200#12 then .evKeyIrq
  else if w = 0x40D#12 then .evUsbEp0Setup
  else if w = 0x401#12 then .evUsbEp0Out
  else if w = 0x419#12 then .evUsbEp0In
  else if w = 0x421#12 then .evUsbEp1Out
  else if w = 0x439#12 then .evUsbEp1In
  else if w = 0x600#12 then .evUsbBusReset
  else if w = 0x601#12 then .evUsbBusOther
  else if w = 0x800#12 then .evTimerTick
  else if src = 2 ∧ ep = 0 then .evUsbBadKind 0 dir kind
  else if src = 2 ∧ ep = 1 then .evUsbBadKind 1 dir kind
  else if src = 2 then .evUsbUnknownEp ep dir kind
  else .evRefused src ep dir kind

/-! ### Internal operations, R82 -/

/-- An `F_CALL` packet: the identifier in bits 7:0, the operand bits above it (log 9). -/
def callWord (id : Byte) (operands : BitVec 48) : BitVec 56 := operands ++ id

/-- The operation without operands, if every operand bit is 0. -/
def plainCall (i : Instr) (operands : BitVec 48) : Except DecodeError Instr :=
  if operands = 0 then .ok i else .error .strayOperand

/-- Decodes an `F_CALL` packet by the identifiers of R82. -/
def decodeCall (w : BitVec 56) : Except DecodeError Instr :=
  let id := w.extractLsb' 0 8
  let ops := w.extractLsb' 8 48
  let b0 := ops.extractLsb' 0 8
  if id = 0x01 then
    match Callback.ofByte? (ops.extractLsb' 24 8) with
    | some cb =>
      if ops.extractLsb' 32 16 = 0 then .ok (.callStartExchange (ops.extractLsb' 0 16) (ops.extractLsb' 16 8) cb)
      else .error .strayOperand
    | none => .error (.badOperand (ops.extractLsb' 24 8))
  else if id = 0x02 then
    match Callback.ofByte? b0 with
    | some cb => if ops.extractLsb' 8 40 = 0 then .ok (.callInvokeCallback cb) else .error .strayOperand
    | none => .error (.badOperand b0)
  else if id = 0x10 then plainCall .callInitialize ops
  else if id = 0x11 then plainCall .callInitDone ops
  else if id = 0x12 then plainCall .callTerminate ops
  else if id = 0x13 then .ok (.callDisplayValues (ops.extractLsb' 0 pStoreBits) (ops.extractLsb' pStoreBits pStoreBits))
  else if id = 0x14 then plainCall .callServiceInterrupt ops
  else if id = 0x15 then plainCall .callKeyReadDone ops
  else if id = 0x20 then plainCall .callEp1Enable ops
  else if id = 0x21 then plainCall .callEp1Disable ops
  else if id = 0x22 then plainCall .callNotifyNewValues ops
  else if id = 0x30 then
    match FatalCause.ofByte? b0 with
    | some c => if ops.extractLsb' 8 40 = 0 then .ok (.callFatal c) else .error .strayOperand
    | none => .error (.badOperand b0)
  else if id = 0x31 then
    match ModelCause.ofByte? b0 with
    | some c => if ops.extractLsb' 8 40 = 0 then .ok (.callModelFault c) else .error .strayOperand
    | none => .error (.badOperand b0)
  else .error (.unknownCall id)

/-! ### SPI command frames, R83 and R94 -/

/-- A write frame: `rw` 0, the register address, the data byte (R83). -/
def writeFrame (reg : BitVec 7) (data : Byte) : BitVec 16 := 0#1 ++ reg ++ data

/-- A read frame: `rw` 1, the register address, the don't-care byte sent as 0x00 (R83). -/
def readFrame (reg : BitVec 7) : BitVec 16 := 1#1 ++ reg ++ 0#8

/-- The digits of every display in the order of their frames, `P_DIGITS * d + i` (R143). -/
def allDigits : List (DisplayId × DigitId) :=
  (List.finRange pDisplays).flatMap fun d => (List.finRange pDigits).map fun i => (d, i)

/-- The digit whose register has this address: the first of `P_DIGIT_REG(0, 0)`, `P_DIGIT_REG(0, 1)`, …. -/
def digitOf? (c : Config) (reg : BitVec 7) : Option (DisplayId × DigitId) :=
  allDigits.find? fun p => c.digitRegister p.1 p.2 == reg

/-- Decodes a frame: the rows of R94 in the opcode table's order, by the configured register addresses and
data bytes; no other frame is sent by the block (R97) (log 10). -/
def decodeFrame (c : Config) (w : BitVec 16) : Except DecodeError Instr :=
  if w = writeFrame c.regScanLimit c.initScanLimit then .ok .wrScanLimit
  else if w = writeFrame c.regIntensity c.initIntensity then .ok .wrIntensity
  else if w = writeFrame c.regDecode c.initDecode then .ok .wrDecode
  else if w = writeFrame c.regConfig c.initConfig then .ok .wrConfigNormal
  else if w = writeFrame c.regPortConfig c.initPortConfig then .ok .wrPortConfig
  else if w = writeFrame c.regConfig c.termConfig then .ok .wrConfigShutdown
  else if w = writeFrame c.regKeyMask c.termKeyMask then .ok .wrKeyMaskOff
  else if w.extractLsb' 15 1 = 0 then
    match digitOf? c (w.extractLsb' 8 7) with
    | some p => .ok (.wrDigit p.1 p.2 (w.extractLsb' 0 8))
    | none => .error (.unknownFrame w)
  else if w = readFrame c.regKeyDebounced then .ok .rdKeyDebounced
  else .error (.unknownFrame w)

/-! ### Setup packets, R86 to R93 -/

/-- The fields of a setup packet (R86). -/
structure SetupPacket where
  bmRequestType : Byte
  bRequest : Byte
  wValue : Word16
  wIndex : Word16
  wLength : Word16
  deriving DecidableEq, Repr

namespace SetupPacket

/-- `wValue[15:8]`: the descriptor type of GetDescriptor, the report type of SetReport (R93). -/
def valueHi (p : SetupPacket) : Byte := p.wValue.extractLsb' 8 8

/-- `wValue[7:0]`: the descriptor index, the configuration value (R93). -/
def valueLo (p : SetupPacket) : Byte := p.wValue.extractLsb' 0 8

/-- `bmRequestType[6:0]`: type and recipient, the key of R173. -/
def typeRecipient (p : SetupPacket) : BitVec 7 := p.bmRequestType.extractLsb' 0 7

/-- The packet as one number, setup byte `k` in bits `8k+7 : 8k`; 16-bit fields little-endian (R64, R86). -/
def word (p : SetupPacket) : BitVec 64 := p.wLength ++ p.wIndex ++ p.wValue ++ p.bRequest ++ p.bmRequestType

/-- The fields of the packet with this number (R93). -/
def ofWord (w : BitVec 64) : SetupPacket where
  bmRequestType := w.extractLsb' 0 8
  bRequest := w.extractLsb' 8 8
  wValue := w.extractLsb' 16 16
  wIndex := w.extractLsb' 32 16
  wLength := w.extractLsb' 48 16

end SetupPacket

/-- The fields of the packet with these bytes, setup byte `k` at index `k` (R86, R93). -/
def SetupPacket.ofBytes (p : List Byte) : SetupPacket where
  bmRequestType := p.getD 0 0
  bRequest := p.getD 1 0
  wValue := p.getD 3 0 ++ p.getD 2 0
  wIndex := p.getD 5 0 ++ p.getD 4 0
  wLength := p.getD 7 0 ++ p.getD 6 0

/-- Decodes a setup packet: the rows of R90 in the opcode table's order, the first match wins (R92). Every
packet has a row. -/
def decodeSetup (p : SetupPacket) : Instr :=
  let getDesc := p.bmRequestType = 0x80 ∧ p.bRequest = 0x06
  let getDescIface := p.bmRequestType = 0x81 ∧ p.bRequest = 0x06
  if getDesc ∧ p.valueHi = 0x01 then .getDescriptorDevice p.valueLo p.wIndex p.wLength
  else if getDesc ∧ p.valueHi = 0x02 then .getDescriptorConfiguration p.valueLo p.wIndex p.wLength
  else if getDesc ∧ p.valueHi = 0x03 then .getDescriptorString p.valueLo p.wIndex p.wLength
  else if getDesc ∧ p.valueHi = 0x06 then .getDescriptorDeviceQualifier p.valueLo p.wIndex p.wLength
  else if getDesc then .getDescriptorOtherDevice p.valueHi p.valueLo p.wIndex p.wLength
  else if getDescIface ∧ p.valueHi = 0x22 then .getDescriptorReport p.valueLo p.wIndex p.wLength
  else if getDescIface then .getDescriptorOtherInterface p.valueHi p.valueLo p.wIndex p.wLength
  else if p.bmRequestType = 0x00 ∧ p.bRequest = 0x05 then .setAddress p.wValue p.wIndex p.wLength
  else if p.bmRequestType = 0x00 ∧ p.bRequest = 0x09 then .setConfiguration p.wValue p.wIndex p.wLength
  else if p.bmRequestType = 0x01 ∧ p.bRequest = 0x0B then .setInterface p.wValue p.wIndex p.wLength
  else if p.bmRequestType = 0x21 ∧ p.bRequest = 0x09 then .hidSetReport p.wValue p.wIndex p.wLength
  else if p.bmRequestType = 0x21 ∧ p.bRequest = 0x0A then .hidSetIdle p.wValue p.wIndex p.wLength
  else if p.bmRequestType = 0xA1 ∧ p.bRequest = 0x01 then .hidGetReport p.wValue p.wIndex p.wLength
  else .unrecognized p.bmRequestType p.bRequest p.wValue p.wIndex p.wLength

/-! ### HID reports, R88 and R89 -/

/-- The 40-bit number of a report: value0 in bits 19:0, value1 in bits 39:20 (R88). -/
def reportWord (v0 v1 : WireValue) : BitVec 40 := v1 ++ v0

/-- value0 of a report (R89). -/
def reportValue0 (w : BitVec 40) : WireValue := w.extractLsb' 0 pWireBits

/-- value1 of a report (R89). -/
def reportValue1 (w : BitVec 40) : WireValue := w.extractLsb' pWireBits pWireBits

/-! ### The decoder and the encoder -/

/-- Decodes a packet under a configuration. Total; an answer `.error` names what is wrong. -/
def decode (c : Config) : Packet → Except DecodeError Instr
  | .evt w => .ok (decodeEvt w)
  | .call w => decodeCall w
  | .spi16 w => decodeFrame c w
  | .setup w => .ok (decodeSetup (SetupPacket.ofWord w))
  | .reportIn w => .ok (.hidReport (reportValue0 w) (reportValue1 w))
  | .reportOut w => .ok (.hidReportDecode (reportValue0 w) (reportValue1 w))

/-- The setup packet of a request. -/
def setupOf (bmRequestType bRequest : Byte) (wValue wIndex wLength : Word16) : Packet :=
  .setup (SetupPacket.word ⟨bmRequestType, bRequest, wValue, wIndex, wLength⟩)

/-- The words of an instruction, from the encodings of `spec/30_encoding.md`. -/
def encode (c : Config) : Instr → Packet
  | .evSpiByteComplete => .evt (evtWord 0 0 0 0)
  | .evKeyIrq => .evt (evtWord 1 0 0 0)
  | .evUsbEp0Setup => .evt (evtWord 2 0 0 kindSetup)
  | .evUsbEp0Out => .evt (evtWord 2 0 0 kindOut)
  | .evUsbEp0In => .evt (evtWord 2 0 1 kindIn)
  | .evUsbEp1Out => .evt (evtWord 2 1 0 kindOut)
  | .evUsbEp1In => .evt (evtWord 2 1 1 kindIn)
  | .evUsbBusReset => .evt (evtWord 3 0 0 0)
  | .evUsbBusOther => .evt (evtWord 3 0 0 1)
  | .evTimerTick => .evt (evtWord 4 0 0 0)
  | .evUsbBadKind ep dir kind => .evt (evtWord 2 (0#3 ++ ep) dir kind)
  | .evUsbUnknownEp ep dir kind => .evt (evtWord 2 ep dir kind)
  | .evRefused src ep dir kind => .evt (evtWord src ep dir kind)
  | .callStartExchange buf len cb => .call (callWord 0x01 (0#16 ++ cb.toByte ++ len ++ buf))
  | .callInvokeCallback cb => .call (callWord 0x02 (0#40 ++ cb.toByte))
  | .callInitialize => .call (callWord 0x10 0)
  | .callInitDone => .call (callWord 0x11 0)
  | .callTerminate => .call (callWord 0x12 0)
  | .callDisplayValues v0 v1 => .call (callWord 0x13 (v1 ++ v0))
  | .callServiceInterrupt => .call (callWord 0x14 0)
  | .callKeyReadDone => .call (callWord 0x15 0)
  | .callEp1Enable => .call (callWord 0x20 0)
  | .callEp1Disable => .call (callWord 0x21 0)
  | .callNotifyNewValues => .call (callWord 0x22 0)
  | .callFatal cause => .call (callWord 0x30 (0#40 ++ cause.toByte))
  | .callModelFault cause => .call (callWord 0x31 (0#40 ++ cause.toByte))
  | .wrScanLimit => .spi16 (writeFrame c.regScanLimit c.initScanLimit)
  | .wrIntensity => .spi16 (writeFrame c.regIntensity c.initIntensity)
  | .wrDecode => .spi16 (writeFrame c.regDecode c.initDecode)
  | .wrConfigNormal => .spi16 (writeFrame c.regConfig c.initConfig)
  | .wrPortConfig => .spi16 (writeFrame c.regPortConfig c.initPortConfig)
  | .wrConfigShutdown => .spi16 (writeFrame c.regConfig c.termConfig)
  | .wrKeyMaskOff => .spi16 (writeFrame c.regKeyMask c.termKeyMask)
  | .wrDigit d i data => .spi16 (writeFrame (c.digitRegister d i) data)
  | .rdKeyDebounced => .spi16 (readFrame c.regKeyDebounced)
  | .getDescriptorDevice lo idx len => setupOf 0x80 0x06 (0x01#8 ++ lo) idx len
  | .getDescriptorConfiguration lo idx len => setupOf 0x80 0x06 (0x02#8 ++ lo) idx len
  | .getDescriptorString lo idx len => setupOf 0x80 0x06 (0x03#8 ++ lo) idx len
  | .getDescriptorDeviceQualifier lo idx len => setupOf 0x80 0x06 (0x06#8 ++ lo) idx len
  | .getDescriptorOtherDevice ty lo idx len => setupOf 0x80 0x06 (ty ++ lo) idx len
  | .getDescriptorReport lo idx len => setupOf 0x81 0x06 (0x22#8 ++ lo) idx len
  | .getDescriptorOtherInterface ty lo idx len => setupOf 0x81 0x06 (ty ++ lo) idx len
  | .setAddress v idx len => setupOf 0x00 0x05 v idx len
  | .setConfiguration v idx len => setupOf 0x00 0x09 v idx len
  | .setInterface v idx len => setupOf 0x01 0x0B v idx len
  | .hidSetReport v idx len => setupOf 0x21 0x09 v idx len
  | .hidSetIdle v idx len => setupOf 0x21 0x0A v idx len
  | .hidGetReport v idx len => setupOf 0xA1 0x01 v idx len
  | .unrecognized bm br v idx len => setupOf bm br v idx len
  | .hidReport v0 v1 => .reportIn (reportWord v0 v1)
  | .hidReportDecode v0 v1 => .reportOut (reportWord v0 v1)

/-! ### The opcode table's numbering -/

/-- The packet whose bits are `w` as `spec/opcode_table.json` numbers them, the bits above `nbits` zero. The
table's rows have 8 (F_CALL), 12 or 16 (F_EVT, F_SPI16), 32 (F_SETUP) or 40 bits (F_REPORT). Two formats have
16 bits: a number below 2^12 is read as an event word, any other as a frame (log 19). -/
def packetOfTable (nbits w : Nat) : Option Packet :=
  let v := w % 2 ^ nbits
  if nbits ≤ 8 then some (.call (BitVec.ofNat 56 v))
  else if nbits ≤ 16 then
    if v < 4096 then some (.evt (BitVec.ofNat 12 v)) else some (.spi16 (BitVec.ofNat 16 v))
  else if nbits ≤ 32 then some (.setup (BitVec.ofNat 64 v))
  else if nbits ≤ 40 then some (.reportIn (BitVec.ofNat 40 v))
  else none

/-- The instruction the decoder reads from a table row's word, under `Config.default`. -/
def decodeTableWord (nbits w : Nat) : Option Instr :=
  match packetOfTable nbits w with
  | some p =>
    match decode Config.default p with
    | .ok i => some i
    | .error _ => none
  | none => none

end Sys2Proof
end

