-- ==== Sys2Proof/Machine/Operands.lean ====
section
/-! DEFINITION. The data the rules compute: BCD digits and digit bytes (`spec/30_encoding.md` R95,
`spec/41_display_keyscan.md` R151), the byte sequences of the SPI transactions (R141 to R144), the HID report
codec (R88, R89). -/

namespace Sys2Proof.Machine

open Sys2Proof

/-! ### Digits, R95 and R151 -/

/-- `bcd(v, i)`: the `i`-th decimal digit of a value up to `P_VALUE_MAX`; above it the draw of index
`n + i` (R151) (log 4). -/
def bcd (n : Nat) (v : StoredValue) (i : Nat) : BitVec 4 :=
  if v.toNat ≤ pValueMax then BitVec.ofNat 4 (v.toNat / 10 ^ i % 10) else Config.freeNibble (n + i)

/-- `digit_byte(v, i)`: the digit in bits 3:0 and the decimal-point bit on digit `dp_pos` (R95). -/
def digitByte (c : Config) (dp : DigitId) (n : Nat) (v : StoredValue) (i : Nat) : Byte :=
  (bcd n v i).setWidth 8 ||| (if i = dp.val then c.dpMask else 0)

/-- How many draws the digits of a value take. -/
def digitDraws (v : StoredValue) : Nat := if v.toNat ≤ pValueMax then 0 else pDigits

/-! ### SPI buffers, R141 to R144 -/

/-- The two buffer bytes of a frame: the register byte first (R63, R83). -/
def frameBytes (w : BitVec 16) : List Byte := [w.extractLsb' 8 8, w.extractLsb' 0 8]

/-- `init_bytes` (R141). -/
def initBytes (c : Config) : List Byte :=
  frameBytes (writeFrame c.regScanLimit c.initScanLimit) ++
  frameBytes (writeFrame c.regIntensity c.initIntensity) ++
  frameBytes (writeFrame c.regDecode c.initDecode) ++
  frameBytes (writeFrame c.regConfig c.initConfig) ++
  frameBytes (writeFrame c.regPortConfig c.initPortConfig)

/-- `term_bytes` (R142). -/
def termBytes (c : Config) : List Byte :=
  frameBytes (writeFrame c.regConfig c.termConfig) ++ frameBytes (writeFrame c.regKeyMask c.termKeyMask)

/-- The frames of display `d` showing `v`, digit 0 first, its draws from index `n` on (R143). -/
def displayFrames (c : Config) (dp : DigitId) (n : Nat) (d : DisplayId) (v : StoredValue) : List Byte :=
  (List.finRange pDigits).flatMap fun i =>
    frameBytes (writeFrame (c.digitRegister d i) (digitByte c dp n v i.val))

/-- `disp_bytes`: display 0, then display 1 (R143). -/
def dispBytes (c : Config) (dp : DigitId) (n : Nat) (v0 v1 : StoredValue) : List Byte :=
  displayFrames c dp n 0 v0 ++ displayFrames c dp (n + digitDraws v0) 1 v1

/-- `key_bytes` (R144). -/
def keyBytes (c : Config) : List Byte := frameBytes (readFrame c.regKeyDebounced)

/-- `key_pressed(k)` (R154). -/
def keyPressed (c : Config) (k : Byte) : Bool :=
  match c.keyGate with
  | .ungated => true
  | .gated => (k &&& c.keyPressedMask) != 0

/-! ### HID report, R88 and R89 -/

/-- `Encode(v0, v1)`: the five report bytes (R88). -/
def encodeReport (v0 v1 : WireValue) : List Byte :=
  [v0.extractLsb' 0 8,
   v0.extractLsb' 8 8,
   v1.extractLsb' 0 4 ++ v0.extractLsb' 16 4,
   v1.extractLsb' 4 8,
   v1.extractLsb' 12 8]

/-- value0 of the report bytes, zero-extended (R89). -/
def decodeReport0 (r : List Byte) : StoredValue :=
  ((r.getD 2 0).extractLsb' 0 4 ++ r.getD 1 0 ++ r.getD 0 0).setWidth pStoreBits

/-- value1 of the report bytes, zero-extended (R89). -/
def decodeReport1 (r : List Byte) : StoredValue :=
  (r.getD 4 0 ++ r.getD 3 0 ++ (r.getD 2 0).extractLsb' 4 4).setWidth pStoreBits

/-- `v mod 2^P_WIRE_BITS`: the value on the wire (R227, C1). -/
def wireValue (v : StoredValue) : WireValue := v.setWidth pWireBits

end Sys2Proof.Machine
end

