-- ==== Sys2Proof/Machine/Spi.lean ====
section
/-! DEFINITION. The SPI transaction engine's `StartExchange`, `spec/40_spi_engine.md` R120. -/

namespace Sys2Proof.Machine

open Sys2Proof

/-- The checks a request fails, in the order of R120. -/
def startFailures (len : Byte) (s : State) : List Cause :=
  (if s.spiActive then [.fatal .spiBusy] else []) ++
  (if len = 0 then [.fatal .spiZeroLength] else []) ++
  (if s.shRxFull then [.fatal .spiStaleRx] else []) ++
  (if len.toNat % pFrame ≠ 0 then [.model .spiOddLength] else [])

/-- `ShifterWrite(RAM[a])`: one byte read, then sent. -/
def sendByte (a : Nat) (s : State) : State :=
  shifterWrite ((readBytes s a 1).headD 0) (afterCoreRead a 1 s)

/-- An accepted request: the engine's fields, chip-select, the first byte (R120). -/
def startAccepted (buf : Word16) (len : Byte) (cb : Callback) (s : State) : State :=
  sendByte buf.toNat
    (setCs true { s with spiActive := true, spiPtr := buf, spiRemaining := len, spiCallback := cb })

/-- `StartExchange(buf, len, cb)` (R120): a request that fails a check raises every cause and writes nothing
else. The address range of the request is not checked (log 14). -/
def startExchange (buf : Word16) (len : Byte) (cb : Callback) (s : State) : State :=
  if startFailures len s = [] then startAccepted buf len cb s else raiseAll (startFailures len s) s

/-- The instruction `StartExchange`. -/
def execCallStartExchange (buf : Word16) (len : Byte) (cb : Callback) (s : State) :
    Host.Outcome State Fault Refusal :=
  .next (startExchange buf len cb s)

end Sys2Proof.Machine
end

