-- ==== Sys2Proof/Machine/Display.lean ====
section
/-! DEFINITION. The Display/Key-Scan driver, `spec/41_display_keyscan.md`: `Initialize` (R145), `InitDone`
(R146), `Terminate` (R148), `DisplayValues` (R150), `ServiceInterrupt` (R152). -/

namespace Sys2Proof.Machine

open Sys2Proof

/-- `Initialize()` (R145). -/
def initializeChip (s : State) : State :=
  startExchange s.cfg.addrBufInit (BitVec.ofNat 8 initLen) .initDone (coreWrite s.cfg.addrBufInit.toNat (initBytes s.cfg) s)

/-- `InitDone()` (R146). -/
def initDone (s : State) : State := setKeyIe true s

/-- `Terminate()` (R148): the interrupt is disabled before the chip is touched. -/
def terminate (s : State) : State :=
  startExchange s.cfg.addrBufTerm (BitVec.ofNat 8 termLen) .none
    (coreWrite s.cfg.addrBufTerm.toNat (termBytes s.cfg) (setKeyIe false s))

/-- The values stored and the display buffer written (R150, before its `StartExchange`). -/
def storeValues (v0 v1 : StoredValue) (s : State) : State :=
  coreWrite s.cfg.addrBufDisp.toNat (dispBytes s.cfg s.dpPos s.draws v0 v1)
    { s with value0 := v0, value1 := v1, draws := s.draws + digitDraws v0 + digitDraws v1 }

/-- `DisplayValues(v0, v1)` (R150). -/
def displayValues (v0 v1 : StoredValue) (s : State) : State :=
  startExchange s.cfg.addrBufDisp (BitVec.ofNat 8 dispLen) .none (storeValues v0 v1 s)

/-- `ServiceInterrupt()` (R152). -/
def serviceInterrupt (s : State) : State :=
  startExchange s.cfg.addrBufKey (BitVec.ofNat 8 keyLen) .keyReadDone (coreWrite s.cfg.addrBufKey.toNat (keyBytes s.cfg) s)

/-- The instruction `Initialize`. -/
def execCallInitialize (s : State) : Host.Outcome State Fault Refusal := .next (initializeChip s)

/-- The instruction `InitDone`. -/
def execCallInitDone (s : State) : Host.Outcome State Fault Refusal := .next (initDone s)

/-- The instruction `Terminate`. -/
def execCallTerminate (s : State) : Host.Outcome State Fault Refusal := .next (terminate s)

/-- The instruction `DisplayValues`. -/
def execCallDisplayValues (v0 v1 : StoredValue) (s : State) : Host.Outcome State Fault Refusal :=
  .next (displayValues v0 v1 s)

/-- The instruction `ServiceInterrupt`. -/
def execCallServiceInterrupt (s : State) : Host.Outcome State Fault Refusal := .next (serviceInterrupt s)

end Sys2Proof.Machine
end

