-- ==== Sys2Proof/Machine/Endpoint1.lean ====
section
/-! DEFINITION. The interrupt endpoint, `spec/43_usb_ep1.md`: `OnEp1Out` (R226), `NotifyNewValues` (R227),
`Ep1Enable` (R228), `Ep1Disable` (R229), `OnEp1In` (R230). -/

namespace Sys2Proof.Machine

open Sys2Proof

/-- A report written to `ep1_in_buf` and armed (R227). -/
def armReport (s : State) : State :=
  arm .ep1In s.cfg.addrEp1In (BitVec.ofNat 10 pReportLen) s.ep1InDts
    (coreWrite s.cfg.addrEp1In.toNat (encodeReport (wireValue s.value0) (wireValue s.value1)) s)

/-- `NotifyNewValues()` (R227). -/
def notifyNewValues (s : State) : State :=
  if s.ep1Enabled = false then s
  else if s.bdEp1In.own = .sie then raiseModelFault .ep1InOverrun s
  else armReport s

/-- `Ep1Enable()` (R228). -/
def ep1Enable (s : State) : State :=
  let armed := arm .ep1Out s.cfg.addrEp1Out (BitVec.ofNat 10 pReportLen) 0 { s with ep1OutDts := 0, ep1InDts := 0 }
  initializeChip (emit (.ep1Enable true) { armed with ep1Enabled := true })

/-- `Ep1Disable()` (R229). -/
def ep1Disable (s : State) : State :=
  let disarmed := reclaimIfArmed .ep1In (reclaimIfArmed .ep1Out (terminate s))
  emit (.ep1Enable false) { disarmed with ep1Enabled := false }

/-- `EP1_OUT` armed again with the flipped toggle (R226). -/
def rearmEp1Out (s : State) : State :=
  arm .ep1Out s.cfg.addrEp1Out (BitVec.ofNat 10 pReportLen) (s.ep1OutDts ^^^ 1) { s with ep1OutDts := s.ep1OutDts ^^^ 1 }

/-- `OnEp1Out()` (R226): a stale completion is ignored (R231); a short packet decodes the buffer as it
stands (D35). -/
def onEp1Out (s : State) : State :=
  if s.ep1Enabled = false then s
  else
    let r := readBytes s s.cfg.addrEp1Out.toNat pReportLen
    rearmEp1Out (displayValues (decodeReport0 r) (decodeReport1 r) (afterCoreRead s.cfg.addrEp1Out.toNat pReportLen s))

/-- `OnEp1In()` (R230). -/
def onEp1In (s : State) : State :=
  if s.ep1Enabled = false then s else { s with ep1InDts := s.ep1InDts ^^^ 1 }

/-- The instruction `Ep1Enable`. -/
def execCallEp1Enable (s : State) : Host.Outcome State Fault Refusal := .next (ep1Enable s)

/-- The instruction `Ep1Disable`. -/
def execCallEp1Disable (s : State) : Host.Outcome State Fault Refusal := .next (ep1Disable s)

/-- The instruction `NotifyNewValues`. -/
def execCallNotifyNewValues (s : State) : Host.Outcome State Fault Refusal := .next (notifyNewValues s)

end Sys2Proof.Machine
end

