-- ==== Sys2Proof/Machine/Callbacks.lean ====
section
/-! DEFINITION. The completion side of the SPI engine: `KeyReadDone` (`spec/41_display_keyscan.md` R153),
`InvokeCallback` (`spec/40_spi_engine.md` R122), `ByteComplete` (R121), and the instructions that raise the
fault signals (`spec/60_exceptions.md` R250, R253). -/

namespace Sys2Proof.Machine

open Sys2Proof

/-- The swap of a key press: the values exchanged and redisplayed, the USB layer notified (R153). -/
def swapValues (s : State) : State := notifyNewValues (displayValues s.value1 s.value0 s)

/-- `KeyReadDone()` (R153). -/
def keyReadDone (s : State) : State :=
  let a := s.cfg.addrBufKey.toNat + 1
  if keyPressed s.cfg ((readBytes s a 1).headD 0) then swapValues (afterCoreRead a 1 s) else afterCoreRead a 1 s

/-- `InvokeCallback(cb)` (R122). -/
def invokeCallback : Callback → State → State
  | .none, s => s
  | .initDone, s => initDone s
  | .keyReadDone, s => keyReadDone s

/-- The received byte stored in the slot just sent, the counter and the pointer moved (R121). -/
def storeReceived (s : State) : State :=
  let w := coreWrite s.spiPtr.toNat [s.shRx] (afterShifterRead s)
  { w with spiRemaining := w.spiRemaining - 1, spiPtr := w.spiPtr + 1 }

/-- The next byte of the transaction; at a command-pair boundary chip-select is deasserted and reasserted
first (R121). -/
def continueExchange (s : State) : State :=
  sendByte s.spiPtr.toNat (if s.spiRemaining.toNat % pFrame = 0 then setCs true (setCs false s) else s)

/-- The end of the transaction: chip-select deasserted, the slot freed, then the callback (R121, R304). -/
def endExchange (s : State) : State :=
  invokeCallback s.spiCallback { setCs false s with spiActive := false, spiCallback := .none }

/-- `ByteComplete()` (R121). -/
def byteComplete (s : State) : State :=
  if s.spiActive = false then raiseModelFault .spiSpurious s
  else if (storeReceived s).spiRemaining = 0 then endExchange (storeReceived s)
  else continueExchange (storeReceived s)

/-- The instruction `InvokeCallback`. -/
def execCallInvokeCallback (cb : Callback) (s : State) : Host.Outcome State Fault Refusal :=
  .next (invokeCallback cb s)

/-- The instruction `KeyReadDone`. -/
def execCallKeyReadDone (s : State) : Host.Outcome State Fault Refusal := .next (keyReadDone s)

/-- The instruction `Fatal` (R250). -/
def execCallFatal (c : FatalCause) (s : State) : Host.Outcome State Fault Refusal := .next (raiseFatal c s)

/-- The instruction `ModelFault` (R253). -/
def execCallModelFault (c : ModelCause) (s : State) : Host.Outcome State Fault Refusal :=
  .next (raiseModelFault c s)

end Sys2Proof.Machine
end

