-- ==== Sys2Proof/Machine/Endpoint0.lean ====
section
/-! DEFINITION. The control endpoint, `spec/42_usb_ep0.md`: the stage helpers (R171, R178, R179, R192, R193,
R195, R198) and the completions of `EP0_IN` and `EP0_OUT` (R196, R197). -/

namespace Sys2Proof.Machine

open Sys2Proof

/-- `CancelTransfer()` (R171). Every field of R34 goes to its reset value, `ctl_src` too: R34 says "All are" reset at
every new Setup and D24 "resets every control field", though R171's pseudocode does not name it. -/
def cancelTransfer (s : State) : State :=
  let r := if s.bdEp0In.own = .sie ∨ s.bdEp0In.stall = true then reclaim .ep0In s else s
  { r with
    ctlDir := .none
    ctlSrcTable := .device
    ctlSrcOff := 0
    ctlDst := 0
    ctlRemaining := 0
    ctlToggle := 0
    ctlZlp := false
    ctlStatus := .none
    pendAddr := none }

/-- The toggle `EP0_OUT` is armed with (R198). -/
def ep0OutToggle (s : State) : Toggle :=
  if s.ctlDir = .h2d then s.ctlToggle
  else if s.ctlDir = .d2h ∨ s.ctlStatus = .statusOut then 1
  else 0

/-- `ArmEp0Out()` (R198). -/
def armEp0Out (s : State) : State :=
  arm .ep0Out s.cfg.addrEp0Out (BitVec.ofNat 10 pEp0Max) (ep0OutToggle s) s

/-- `StatusIn()` (R179). -/
def statusIn (s : State) : State :=
  { arm .ep0In s.cfg.addrEp0In 0 1 s with ctlStatus := .statusIn }

/-- `Unrecognized(cause)` (R192). -/
def rejectRequest (c : FatalCause) (s : State) : State := raiseFatal c (stall .ep0In s)

/-- The chunk `bytes` written to `ep0_in_buf`, the cursor moved, `EP0_IN` armed (R193). -/
def armChunk (bytes : List Byte) (s : State) : State :=
  let n := bytes.length
  let w := coreWrite s.cfg.addrEp0In.toNat bytes s
  let m := { w with ctlSrcOff := w.ctlSrcOff + BitVec.ofNat 16 n, ctlRemaining := w.ctlRemaining - BitVec.ofNat 16 n }
  let a := arm .ep0In m.cfg.addrEp0In (BitVec.ofNat 10 n) m.ctlToggle m
  { a with ctlToggle := a.ctlToggle ^^^ 1 }

/-- `SendChunk()` (R193): the next `min(ctl_remaining, P_EP0_MAX)` bytes of the table; stuck past its end. -/
def sendChunk (s : State) : Except Fault State :=
  match romRead s.cfg s.ctlSrcTable s.ctlSrcOff.toNat (min s.ctlRemaining.toNat pEp0Max) with
  | .ok bytes => .ok (armChunk bytes s)
  | .error f => .error f

/-- `StartControlRead(t, wLength)` (R178). -/
def startControlRead (t : DescId) (wLength : Word16) (s : State) : Except Fault State :=
  let total := min wLength.toNat (s.cfg.rom t).length
  sendChunk { s with
    ctlDir := .d2h
    ctlSrcTable := t
    ctlSrcOff := 0
    ctlRemaining := BitVec.ofNat 16 total
    ctlToggle := 1
    ctlZlp := decide (s.cfg.ctlZlp = .whenShort) && decide (total < wLength.toNat) &&
      decide (total % pEp0Max = 0) && decide (0 < total) }

/-- `SetReportSink(m)` (R195): `P_SETREPORT_SINK`. -/
def setReportSink (m : Word16) (s : State) : State :=
  match s.cfg.setReportSink with
  | .discard => s
  | .display =>
    if pReportLen ≤ m.toNat then
      let r := readBytes s s.cfg.addrBufSetrep.toNat pReportLen
      displayValues (decodeReport0 r) (decodeReport1 r) (afterCoreRead s.cfg.addrBufSetrep.toNat pReportLen s)
    else s

/-- The bookkeeping of `ControlWriteData` after the `n` bytes are copied, for a packet of `c` bytes (R195). -/
def finishWriteData (c n : Nat) (s : State) : State :=
  let m := { s with
    ctlDst := s.ctlDst + BitVec.ofNat 16 n
    ctlRemaining := s.ctlRemaining - BitVec.ofNat 16 n
    ctlToggle := if c = pEp0Max then s.ctlToggle ^^^ 1 else s.ctlToggle }
  if c < pEp0Max ∨ m.ctlRemaining = 0 then statusIn (setReportSink m.ctlDst { m with ctlDir := .none }) else m

/-- `ControlWriteData(c)` (R195). -/
def controlWriteData (c : Nat) (s : State) : Except Fault State :=
  let n := min c s.ctlRemaining.toNat
  match memRead s.cfg.addrEp0Out.toNat n s with
  | .error f => .error f
  | .ok (bytes, r) =>
    match memWrite (r.cfg.addrBufSetrep.toNat + r.ctlDst.toNat) bytes r with
    | .error f => .error f
    | .ok w => .ok (finishWriteData c n w)

/-- The address a status stage applies (R196, R186). -/
def applyAddress (s : State) : State :=
  match s.pendAddr with
  | none => s
  | some a => emit (.addr a) { s with usbAddr := a, pendAddr := none }

/-- `OnEp0In()` (R196). -/
def onEp0In (s : State) : Except Fault State :=
  if s.ctlDir = .d2h then
    if s.ctlRemaining ≠ 0 then sendChunk s
    else if s.ctlZlp = true then sendChunk { s with ctlZlp := false }
    else .ok { s with ctlDir := .none, ctlStatus := .statusOut }
  else if s.ctlStatus = .statusIn then .ok (applyAddress { s with ctlStatus := .none })
  else .ok s

/-- The end of a control read by the host's OUT (R197, D34). -/
def endRead (s : State) : State :=
  { reclaimIfArmed .ep0In s with ctlDir := .none, ctlStatus := .none, ctlZlp := false }

/-- `OnEp0Out()` after its read of the count (R197). -/
def handleEp0Out (s : State) : Except Fault State :=
  if s.ctlDir = .h2d then
    match controlWriteData s.bdEp0Out.cnt.toNat s with
    | .ok t => .ok (armEp0Out t)
    | .error f => .error f
  else if s.ctlDir = .d2h ∨ s.ctlStatus = .statusOut then .ok (armEp0Out (endRead s))
  else .ok (armEp0Out s)

/-- `OnEp0Out()` (R197): it reads `BD[EP0_OUT].cnt` first. -/
def onEp0Out (s : State) : Except Fault State := handleEp0Out (readField .ep0Out s)

end Sys2Proof.Machine
end

