-- ==== Sys2Proof/Machine/Requests.lean ====
section
/-! DEFINITION. The requests of the control endpoint, `spec/42_usb_ep0.md` R180 to R194, their dispatch
(R173 to R177), and the Setup handler (R172). -/

namespace Sys2Proof.Machine

open Sys2Proof

/-! ### The requests -/

/-- `GetDescDevice` (R180). -/
def getDescDevice (wLength : Word16) (s : State) : Except Fault State := startControlRead .device wLength s

/-- `GetDescConfig` (R181). -/
def getDescConfig (wLength : Word16) (s : State) : Except Fault State := startControlRead .config wLength s

/-- `GetDescString` (R182). -/
def getDescString (index : Byte) (wLength : Word16) (s : State) : Except Fault State :=
  if index = 0 then startControlRead .string0 wLength s
  else if index = 1 then startControlRead .string1 wLength s
  else if index = 2 then startControlRead .string2 wLength s
  else .ok (rejectRequest .unsupportedDescriptor s)

/-- `GetDescQualifier` (R183). -/
def getDescQualifier (s : State) : State :=
  if s.cfg.dqFatal then raiseFatal .deviceQualifier (stall .ep0In s) else stall .ep0In s

/-- `GetDescReport` (R189). -/
def getDescReport (wLength : Word16) (s : State) : Except Fault State := startControlRead .report wLength s

/-- `SetAddress` (R185). -/
def setAddressRequest (wValue : Word16) (s : State) : State :=
  if pAddrLimit ≤ wValue.toNat then rejectRequest .badSetAddress s
  else statusIn { s with pendAddr := some (wValue.extractLsb' 0 7) }

/-- `SetConfiguration` with value `cv` (R187). -/
def setConfigurationRequest (cv : Byte) (s : State) : State :=
  if cv = 0 then
    statusIn (if s.configured = true then { ep1Disable s with configured := false } else s)
  else if cv = s.cfg.configValue then
    statusIn (if s.configured = false then { ep1Enable s with configured := true } else s)
  else rejectRequest .badConfiguration s

/-- `SetInterface` (R188). -/
def setInterfaceRequest (wValue : Word16) (s : State) : State :=
  if wValue = 0 then statusIn s else rejectRequest .nondefaultAltSetting s

/-- `SetReport` with this report type (R190). -/
def setReportRequest (reportType : Byte) (s : State) : State :=
  if reportType ≠ BitVec.ofNat 8 pOutputReportType then rejectRequest .unsupportedReportType s
  else { s with ctlDir := .h2d, ctlDst := 0, ctlRemaining := BitVec.ofNat 16 pEp0Max, ctlToggle := 1 }

/-! ### Dispatch, R173 to R177 -/

/-- `GetDescriptorDevice` (R174). -/
def getDescriptorOnDevice (p : SetupPacket) (s : State) : Except Fault State :=
  if p.valueHi = 0x01 then getDescDevice p.wLength s
  else if p.valueHi = 0x02 then getDescConfig p.wLength s
  else if p.valueHi = 0x03 then getDescString p.valueLo p.wLength s
  else if p.valueHi = 0x06 then .ok (getDescQualifier s)
  else .ok (rejectRequest .unsupportedDescriptor s)

/-- `StdDevice` (R174). -/
def stdDevice (p : SetupPacket) (s : State) : Except Fault State :=
  if p.bmRequestType = 0x80 ∧ p.bRequest = 0x06 then getDescriptorOnDevice p s
  else if p.bmRequestType = 0x00 ∧ p.bRequest = 0x05 then .ok (setAddressRequest p.wValue s)
  else if p.bmRequestType = 0x00 ∧ p.bRequest = 0x09 then .ok (setConfigurationRequest p.valueLo s)
  else .ok (rejectRequest .unrecognizedRequest s)

/-- `StdInterface` (R175). -/
def stdInterface (p : SetupPacket) (s : State) : Except Fault State :=
  if p.bmRequestType = 0x81 ∧ p.bRequest = 0x06 then
    if p.valueHi = 0x22 then getDescReport p.wLength s else .ok (rejectRequest .unsupportedDescriptor s)
  else if p.bmRequestType = 0x01 ∧ p.bRequest = 0x0B then .ok (setInterfaceRequest p.wValue s)
  else .ok (rejectRequest .unrecognizedRequest s)

/-- `StdEndpoint` (R176): no request is accepted. -/
def stdEndpoint (_p : SetupPacket) (s : State) : Except Fault State :=
  .ok (rejectRequest .unrecognizedRequest s)

/-- `ClassInterface` (R177). -/
def classInterface (p : SetupPacket) (s : State) : Except Fault State :=
  if p.bmRequestType = 0x21 ∧ p.bRequest = 0x09 then .ok (setReportRequest p.valueHi s)
  else if p.bmRequestType = 0x21 ∧ p.bRequest = 0x0A then .ok (statusIn s)
  else if p.bmRequestType = 0xA1 ∧ p.bRequest = 0x01 then .ok (rejectRequest .unimplementedGetReport s)
  else .ok (rejectRequest .unrecognizedRequest s)

/-- `Dispatch(p)` (R173). -/
def dispatchSetup (p : SetupPacket) (s : State) : Except Fault State :=
  if p.typeRecipient = 0x00 then stdDevice p s
  else if p.typeRecipient = 0x01 then stdInterface p s
  else if p.typeRecipient = 0x02 then stdEndpoint p s
  else if p.typeRecipient = 0x21 then classInterface p s
  else .ok (rejectRequest .unrecognizedRequest s)

/-- `OnSetup()` (R172). -/
def onSetup (s : State) : Except Fault State :=
  let a := s.cfg.addrEp0Out.toNat
  match dispatchSetup (SetupPacket.ofBytes (readBytes s a 8)) (cancelTransfer (afterCoreRead a 8 s)) with
  | .ok t => .ok (armEp0Out t)
  | .error f => .error f

/-! ### The requests as instructions: the request's own rule (log 20) -/

/-- The instruction `GET_DESCRIPTOR_DEVICE` (R180): `wValue[7:0]` and `wIndex` are ignored. -/
def execGetDescriptorDevice (wLength : Word16) (s : State) : Host.Outcome State Fault Refusal :=
  outcome (getDescDevice wLength s)

/-- The instruction `GET_DESCRIPTOR_CONFIGURATION` (R181). -/
def execGetDescriptorConfiguration (wLength : Word16) (s : State) : Host.Outcome State Fault Refusal :=
  outcome (getDescConfig wLength s)

/-- The instruction `GET_DESCRIPTOR_STRING` (R182). -/
def execGetDescriptorString (index : Byte) (wLength : Word16) (s : State) : Host.Outcome State Fault Refusal :=
  outcome (getDescString index wLength s)

/-- The instruction `GET_DESCRIPTOR_DEVICE_QUALIFIER` (R183). -/
def execGetDescriptorDeviceQualifier (s : State) : Host.Outcome State Fault Refusal :=
  .next (getDescQualifier s)

/-- The instruction `GET_DESCRIPTOR_OTHER_DEVICE` (R184). -/
def execGetDescriptorOtherDevice (s : State) : Host.Outcome State Fault Refusal :=
  .next (rejectRequest .unsupportedDescriptor s)

/-- The instruction `GET_DESCRIPTOR_REPORT` (R189). -/
def execGetDescriptorReport (wLength : Word16) (s : State) : Host.Outcome State Fault Refusal :=
  outcome (getDescReport wLength s)

/-- The instruction `GET_DESCRIPTOR_OTHER_INTERFACE` (R184). -/
def execGetDescriptorOtherInterface (s : State) : Host.Outcome State Fault Refusal :=
  .next (rejectRequest .unsupportedDescriptor s)

/-- The instruction `SET_ADDRESS` (R185). -/
def execSetAddress (wValue : Word16) (s : State) : Host.Outcome State Fault Refusal :=
  .next (setAddressRequest wValue s)

/-- The instruction `SET_CONFIGURATION` (R187): `wValue[15:8]` is ignored. -/
def execSetConfiguration (wValue : Word16) (s : State) : Host.Outcome State Fault Refusal :=
  .next (setConfigurationRequest (wValue.extractLsb' 0 8) s)

/-- The instruction `SET_INTERFACE` (R188). -/
def execSetInterface (wValue : Word16) (s : State) : Host.Outcome State Fault Refusal :=
  .next (setInterfaceRequest wValue s)

/-- The instruction `HID_SET_REPORT` (R190). -/
def execHidSetReport (wValue : Word16) (s : State) : Host.Outcome State Fault Refusal :=
  .next (setReportRequest (wValue.extractLsb' 8 8) s)

/-- The instruction `HID_SET_IDLE` (R191): a no-op but for its status stage. -/
def execHidSetIdle (s : State) : Host.Outcome State Fault Refusal := .next (statusIn s)

/-- The instruction `HID_GET_REPORT` (R194). -/
def execHidGetReport (s : State) : Host.Outcome State Fault Refusal :=
  .next (rejectRequest .unimplementedGetReport s)

/-- The instruction `UNRECOGNIZED` (R192). -/
def execUnrecognized (s : State) : Host.Outcome State Fault Refusal :=
  .next (rejectRequest .unrecognizedRequest s)

end Sys2Proof.Machine
end

