-- ==== Sys2Proof/Machine/Events.lean ====
section
/-! DEFINITION. The entry points, `spec/60_exceptions.md` R256 to R266, the bus reset
(`spec/70_reset_and_hazards.md` R292), and the event words as instructions. An event word runs its whole
entry point when the condition R256 demands holds; otherwise the dispatcher does not invoke it and nothing
happens (log 7, 8). -/

namespace Sys2Proof.Machine

open Sys2Proof

/-! ### The entry points -/

/-- `SpiByteComplete()` (R264): the flag is cleared first (R257). -/
def spiByteComplete (s : State) : State := byteComplete { s with spiIf := false }

/-- `KeyIrq()` (R265). -/
def keyIrq (s : State) : State := serviceInterrupt { s with keyIf := false }

/-- `TimerTick()` (R266). -/
def timerTick (s : State) : State := { s with timerIf := false }

/-- `Route(ep, dir)` (R260): it reads `BD[EP0_OUT].pid` of an `EP0_OUT` completion; an unknown endpoint has no effect
(R262). -/
def route (ep : BitVec 4) (d : Dir) (s : State) : Except Fault State :=
  if ep = 0 then
    match d with
    | .out => if s.bdEp0Out.pid = .setup then onSetup (readField .ep0Out s) else onEp0Out (readField .ep0Out s)
    | .inn => onEp0In s
  else if ep = 1 then
    match d with
    | .out => .ok (onEp1Out s)
    | .inn => .ok (onEp1In s)
  else .ok s

/-- The loop of R259 over the entries of the queue, each consumed before it is handled. -/
def drain : List (BitVec 4 × Dir) → State → Except Fault State
  | [], s => .ok s
  | e :: rest, s =>
    match route e.1 e.2 { s with trnFifo := rest } with
    | .ok t => drain rest t
    | .error f => .error f

/-- `UsbTransaction()` (R259). -/
def usbTransaction (s : State) : Except Fault State := drain s.trnFifo s

/-- `BusReset()` (R292). -/
def busReset (s : State) : State :=
  let q := { s with trnFifo := [] }
  let u := if q.configured = true then { ep1Disable q with configured := false } else q
  let a := emit (.addr 0) { u with usbAddr := 0 }
  armEp0Out (reclaimIfArmed .ep0Out (cancelTransfer a))

/-- `UsbBusEvent()` (R263). -/
def usbBusEvent (s : State) : State :=
  let r := if s.busResetIf = true then busReset { s with busResetIf := false } else s
  if r.busOtherIf = true then { r with busOtherIf := false } else r

/-- The rest of the USB entry point after its first entry was handled. -/
def thenDrain (r : Except Fault State) : Except Fault State :=
  match r with
  | .ok t => usbTransaction t
  | .error f => .error f

/-! ### The event words as instructions -/

/-- The direction an event word's `dir` bit names (R81). -/
def dirOf (b : BitVec 1) : Dir := if b = 0 then .out else .inn

/-- The instruction `EV_SPI_BYTE_COMPLETE` (R264). -/
def execEvSpiByteComplete (s : State) : Host.Outcome State Fault Refusal :=
  if s.spiIf = true then .next (spiByteComplete s) else .next s

/-- The instruction `EV_KEY_IRQ` (R265). -/
def execEvKeyIrq (s : State) : Host.Outcome State Fault Refusal :=
  if s.keyIf = true ∧ s.keyIe = true then .next (keyIrq s) else .next s

/-- The instruction `EV_USB_EP0_SETUP` (R172, R259); R260 reads `pid` to come here. -/
def execEvUsbEp0Setup (s : State) : Host.Outcome State Fault Refusal :=
  if headIs 0 .out s = true ∧ s.bdEp0Out.pid = .setup then
    outcome (thenDrain (onSetup (readField .ep0Out (popTrn s))))
  else .next s

/-- The instruction `EV_USB_EP0_OUT` (R197, R259); R260 reads `pid` to come here. -/
def execEvUsbEp0Out (s : State) : Host.Outcome State Fault Refusal :=
  if headIs 0 .out s = true ∧ s.bdEp0Out.pid ≠ .setup then
    outcome (thenDrain (onEp0Out (readField .ep0Out (popTrn s))))
  else .next s

/-- The instruction `EV_USB_EP0_IN` (R196, R259). -/
def execEvUsbEp0In (s : State) : Host.Outcome State Fault Refusal :=
  if headIs 0 .inn s = true then outcome (thenDrain (onEp0In (popTrn s))) else .next s

/-- The instruction `EV_USB_EP1_OUT` (R226, R259). -/
def execEvUsbEp1Out (s : State) : Host.Outcome State Fault Refusal :=
  if headIs 1 .out s = true then outcome (thenDrain (.ok (onEp1Out (popTrn s)))) else .next s

/-- The instruction `EV_USB_EP1_IN` (R230, R259). -/
def execEvUsbEp1In (s : State) : Host.Outcome State Fault Refusal :=
  if headIs 1 .inn s = true then outcome (thenDrain (.ok (onEp1In (popTrn s)))) else .next s

/-- The instruction `EV_USB_BUS_RESET` (R292, R263). -/
def execEvUsbBusReset (s : State) : Host.Outcome State Fault Refusal :=
  if s.busResetIf = true then .next (usbBusEvent s) else .next s

/-- The instruction `EV_USB_BUS_OTHER` (R263). -/
def execEvUsbBusOther (s : State) : Host.Outcome State Fault Refusal :=
  if s.busOtherIf = true then .next (usbBusEvent s) else .next s

/-- The instruction `EV_TIMER_TICK` (R266). -/
def execEvTimerTick (s : State) : Host.Outcome State Fault Refusal :=
  if s.timerIf = true then .next (timerTick s) else .next s

/-- The instruction `EV_USB_UNKNOWN_EP` (R262, R259): the entry is consumed and changes nothing else. -/
def execEvUsbUnknownEp (ep : BitVec 4) (dir : BitVec 1) (s : State) : Host.Outcome State Fault Refusal :=
  if headIs ep (dirOf dir) s = true then outcome (usbTransaction s) else .next s

/-- The instruction `EV_USB_BAD_KIND`: `REFUSED_EVENT` (R254). -/
def execEvUsbBadKind (_s : State) : Host.Outcome State Fault Refusal := .refused .refusedEvent

/-- The instruction `EV_REFUSED`: `REFUSED_EVENT` (R254). -/
def execEvRefused (_s : State) : Host.Outcome State Fault Refusal := .refused .refusedEvent

end Sys2Proof.Machine
end

