-- ==== Sys2Proof/Machine/Frames.lean ====
section
/-! DEFINITION. The downstream command frames as instructions, `spec/30_encoding.md` R94: the frame's two
bytes are written at its place in its transaction's buffer (R141 to R144) and sent as a transaction of one
frame, without a callback (log 10). -/

namespace Sys2Proof.Machine

open Sys2Proof

/-- The frame `w` written at the place of frame `j` of the transaction in `buf` and sent alone: one assertion of
chip-select (R84). -/
def sendFrame (buf : Word16) (j : Nat) (w : BitVec 16) (s : State) : State :=
  startExchange (buf + BitVec.ofNat 16 (pFrame * j)) (BitVec.ofNat 8 pFrame) .none
    (coreWrite (buf.toNat + pFrame * j) (frameBytes w) s)

/-- The instruction `WR_SCAN_LIMIT`. -/
def execWrScanLimit (s : State) : Host.Outcome State Fault Refusal :=
  .next (sendFrame s.cfg.addrBufInit 0 (writeFrame s.cfg.regScanLimit s.cfg.initScanLimit) s)

/-- The instruction `WR_INTENSITY`. -/
def execWrIntensity (s : State) : Host.Outcome State Fault Refusal :=
  .next (sendFrame s.cfg.addrBufInit 1 (writeFrame s.cfg.regIntensity s.cfg.initIntensity) s)

/-- The instruction `WR_DECODE`. -/
def execWrDecode (s : State) : Host.Outcome State Fault Refusal :=
  .next (sendFrame s.cfg.addrBufInit 2 (writeFrame s.cfg.regDecode s.cfg.initDecode) s)

/-- The instruction `WR_CONFIG_NORMAL`. -/
def execWrConfigNormal (s : State) : Host.Outcome State Fault Refusal :=
  .next (sendFrame s.cfg.addrBufInit 3 (writeFrame s.cfg.regConfig s.cfg.initConfig) s)

/-- The instruction `WR_PORT_CONFIG`. -/
def execWrPortConfig (s : State) : Host.Outcome State Fault Refusal :=
  .next (sendFrame s.cfg.addrBufInit 4 (writeFrame s.cfg.regPortConfig s.cfg.initPortConfig) s)

/-- The instruction `WR_CONFIG_SHUTDOWN`. -/
def execWrConfigShutdown (s : State) : Host.Outcome State Fault Refusal :=
  .next (sendFrame s.cfg.addrBufTerm 0 (writeFrame s.cfg.regConfig s.cfg.termConfig) s)

/-- The instruction `WR_KEY_MASK_OFF`. -/
def execWrKeyMaskOff (s : State) : Host.Outcome State Fault Refusal :=
  .next (sendFrame s.cfg.addrBufTerm 1 (writeFrame s.cfg.regKeyMask s.cfg.termKeyMask) s)

/-- The instruction `WR_DIGIT(d, i)` with the data byte its word carries; `DisplayValues` composes the frames
with `digit_byte(value[d], i)` (log 10). -/
def execWrDigit (d : DisplayId) (i : DigitId) (data : Byte) (s : State) : Host.Outcome State Fault Refusal :=
  .next (sendFrame s.cfg.addrBufDisp (pDigits * d.val + i.val) (writeFrame (s.cfg.digitRegister d i) data) s)

/-- The instruction `RD_KEY_DEBOUNCED`: the register's content arrives in the slot of the second byte (R85). -/
def execRdKeyDebounced (s : State) : Host.Outcome State Fault Refusal :=
  .next (sendFrame s.cfg.addrBufKey 0 (readFrame s.cfg.regKeyDebounced) s)

end Sys2Proof.Machine
end

