-- ==== Sys2Proof/Machine/Reports.lean ====
section
/-! DEFINITION. The HID report codec as instructions, `spec/30_encoding.md` R88, R89 (log 11). -/

namespace Sys2Proof.Machine

open Sys2Proof

/-- The instruction `HID_REPORT`: the report of two wire values, encoded into `ep1_in_buf`, where
`NotifyNewValues` puts it (R88, R227). A buffer the SIE owns is not written (R73). -/
def execHidReport (v0 v1 : WireValue) (s : State) : Host.Outcome State Fault Refusal :=
  .next (coreWrite s.cfg.addrEp1In.toNat (encodeReport v0 v1) s)

/-- The instruction `HID_REPORT_DECODE`: the decoded values, zero-extended, forwarded to the driver as
`OnEp1Out` does (R89, R226). -/
def execHidReportDecode (v0 v1 : WireValue) (s : State) : Host.Outcome State Fault Refusal :=
  .next (displayValues (v0.setWidth pStoreBits) (v1.setWidth pStoreBits) s)

end Sys2Proof.Machine
end

