-- ==== Sys2Proof/Machine/Dispatch.lean ====
section
/-! DEFINITION. The one dispatch: every instruction to its meaning. -/

namespace Sys2Proof.Machine

open Sys2Proof

def exec (i : Instr) (s : State) : Host.Outcome State Fault Refusal :=
  match i with
  | .evSpiByteComplete => Sys2Proof.Machine.execEvSpiByteComplete s
  | .evKeyIrq => Sys2Proof.Machine.execEvKeyIrq s
  | .evUsbEp0Setup => Sys2Proof.Machine.execEvUsbEp0Setup s
  | .evUsbEp0Out => Sys2Proof.Machine.execEvUsbEp0Out s
  | .evUsbEp0In => Sys2Proof.Machine.execEvUsbEp0In s
  | .evUsbEp1Out => Sys2Proof.Machine.execEvUsbEp1Out s
  | .evUsbEp1In => Sys2Proof.Machine.execEvUsbEp1In s
  | .evUsbBusReset => Sys2Proof.Machine.execEvUsbBusReset s
  | .evUsbBusOther => Sys2Proof.Machine.execEvUsbBusOther s
  | .evTimerTick => Sys2Proof.Machine.execEvTimerTick s
  | .evUsbBadKind _ _ _ => Sys2Proof.Machine.execEvUsbBadKind s
  | .evUsbUnknownEp ep dir _ => Sys2Proof.Machine.execEvUsbUnknownEp ep dir s
  | .evRefused _ _ _ _ => Sys2Proof.Machine.execEvRefused s
  | .callStartExchange buf len cb => Sys2Proof.Machine.execCallStartExchange buf len cb s
  | .callInvokeCallback cb => Sys2Proof.Machine.execCallInvokeCallback cb s
  | .callInitialize => Sys2Proof.Machine.execCallInitialize s
  | .callInitDone => Sys2Proof.Machine.execCallInitDone s
  | .callTerminate => Sys2Proof.Machine.execCallTerminate s
  | .callDisplayValues v0 v1 => Sys2Proof.Machine.execCallDisplayValues v0 v1 s
  | .callServiceInterrupt => Sys2Proof.Machine.execCallServiceInterrupt s
  | .callKeyReadDone => Sys2Proof.Machine.execCallKeyReadDone s
  | .callEp1Enable => Sys2Proof.Machine.execCallEp1Enable s
  | .callEp1Disable => Sys2Proof.Machine.execCallEp1Disable s
  | .callNotifyNewValues => Sys2Proof.Machine.execCallNotifyNewValues s
  | .callFatal cause => Sys2Proof.Machine.execCallFatal cause s
  | .callModelFault cause => Sys2Proof.Machine.execCallModelFault cause s
  | .wrScanLimit => Sys2Proof.Machine.execWrScanLimit s
  | .wrIntensity => Sys2Proof.Machine.execWrIntensity s
  | .wrDecode => Sys2Proof.Machine.execWrDecode s
  | .wrConfigNormal => Sys2Proof.Machine.execWrConfigNormal s
  | .wrPortConfig => Sys2Proof.Machine.execWrPortConfig s
  | .wrConfigShutdown => Sys2Proof.Machine.execWrConfigShutdown s
  | .wrKeyMaskOff => Sys2Proof.Machine.execWrKeyMaskOff s
  | .wrDigit d k data => Sys2Proof.Machine.execWrDigit d k data s
  | .rdKeyDebounced => Sys2Proof.Machine.execRdKeyDebounced s
  | .getDescriptorDevice _ _ len => Sys2Proof.Machine.execGetDescriptorDevice len s
  | .getDescriptorConfiguration _ _ len => Sys2Proof.Machine.execGetDescriptorConfiguration len s
  | .getDescriptorString index _ len => Sys2Proof.Machine.execGetDescriptorString index len s
  | .getDescriptorDeviceQualifier _ _ _ => Sys2Proof.Machine.execGetDescriptorDeviceQualifier s
  | .getDescriptorOtherDevice _ _ _ _ => Sys2Proof.Machine.execGetDescriptorOtherDevice s
  | .getDescriptorReport _ _ len => Sys2Proof.Machine.execGetDescriptorReport len s
  | .getDescriptorOtherInterface _ _ _ _ => Sys2Proof.Machine.execGetDescriptorOtherInterface s
  | .setAddress v _ _ => Sys2Proof.Machine.execSetAddress v s
  | .setConfiguration v _ _ => Sys2Proof.Machine.execSetConfiguration v s
  | .setInterface v _ _ => Sys2Proof.Machine.execSetInterface v s
  | .hidSetReport v _ _ => Sys2Proof.Machine.execHidSetReport v s
  | .hidSetIdle _ _ _ => Sys2Proof.Machine.execHidSetIdle s
  | .hidGetReport _ _ _ => Sys2Proof.Machine.execHidGetReport s
  | .unrecognized _ _ _ _ _ => Sys2Proof.Machine.execUnrecognized s
  | .hidReport v0 v1 => Sys2Proof.Machine.execHidReport v0 v1 s
  | .hidReportDecode v0 v1 => Sys2Proof.Machine.execHidReportDecode v0 v1 s

end Sys2Proof.Machine
end

