-- ==== Sys2Proof/Machine/Fetch.lean ====
section
/-! DEFINITION. Where the next step comes from: the schedule's packets and the dispatcher's choice
(`spec/60_exceptions.md` R256), and what it takes for a given packet to run next (log 5, 6). -/

namespace Sys2Proof.Machine

open Sys2Proof

/-- The `dir` bit of an event word (R81). -/
def dirBit : Dir → BitVec 1
  | .out => 0
  | .inn => 1

/-- The event word of the oldest completion: `ep` and `dir` from the entry, `kind` the descriptor's `pid` (R81, R259,
R260). An unknown endpoint has no descriptor and its entry holds no token, so its `kind` is open: the model says 0,
DESIGN CHOICE, and the instruction ignores it (log 27). -/
def usbEvent (s : State) : Option Instr :=
  match s.trnFifo with
  | [] => none
  | (ep, d) :: _ =>
    if ep = 0 then
      match d with
      | .out => some (if s.bdEp0Out.pid = .setup then .evUsbEp0Setup else .evUsbEp0Out)
      | .inn => some .evUsbEp0In
    else if ep = 1 then
      match d with
      | .out => some .evUsbEp1Out
      | .inn => some .evUsbEp1In
    else some (.evUsbUnknownEp ep (dirBit d) 0)

/-- The event word with which the dispatcher invokes an entry point. -/
def eventOf (s : State) : EntryPoint → Option Instr
  | .spiByteComplete => some .evSpiByteComplete
  | .keyIrq => some .evKeyIrq
  | .usbTransaction => usbEvent s
  | .usbBusEvent => some (if s.busResetIf = true then .evUsbBusReset else .evUsbBusOther)
  | .timerTick => some .evTimerTick

/-- The event word of the first enabled entry point in `P_DISPATCH_ORDER`; none when no entry point is
enabled (R256). -/
def nextEvent (s : State) : Option Instr :=
  match s.cfg.dispatchOrder.find? (enabled s) with
  | some ep => eventOf s ep
  | none => none

/-- The dispatcher invokes the next enabled entry point; with none enabled the block waits (R313, log 6). -/
def runDispatcher (s : State) : Host.Outcome State Fault Refusal :=
  match nextEvent s with
  | some i => exec i s
  | none => .next s

/-- The CORE runs a packet. -/
def runPacket (p : Packet) (s : State) : Host.Outcome State Fault Refusal :=
  match decode s.cfg p with
  | .ok i => exec i s
  | .error e => .refused (.undecodable e)

/-- The condition of an event word's entry point holds, as R256 demands before the dispatcher may invoke it:
what the agent that raises the condition leaves (R46 to R51), every data byte 0 (log 5). -/
def raiseCondition (w : BitVec 12) (s : State) : State :=
  match decodeEvt w with
  | .evSpiByteComplete => { s with spiIf := true }
  | .evKeyIrq => { s with keyIf := true, keyIe := true }
  | .evUsbEp0Setup => { completeOut .ep0 .setup [0, 0, 0, 0, 0, 0, 0, 0] s with trnFifo := [(0, .out)] }
  | .evUsbEp0Out => { completeOut .ep0 .out [] s with trnFifo := [(0, .out)] }
  | .evUsbEp0In => { s with trnFifo := [(0, .inn)], bdEp0In := { s.bdEp0In with own := .cpu, pid := .inn } }
  | .evUsbEp1Out => { completeOut .ep1 .out [0, 0, 0, 0, 0] s with trnFifo := [(1, .out)] }
  | .evUsbEp1In => { s with trnFifo := [(1, .inn)], bdEp1In := { s.bdEp1In with own := .cpu, pid := .inn } }
  | .evUsbBusReset => { s with busResetIf := true }
  | .evUsbBusOther => { s with busOtherIf := true }
  | .evTimerTick => { s with timerIf := true }
  | .evUsbUnknownEp ep dir _ => { s with trnFifo := [(ep, dirOf dir)] }
  | _ => s

/-- The state with the packet first in the schedule and, for an event word, its condition raised. -/
def withPacket (p : Packet) (s : State) : State :=
  match p with
  | .evt w => { raiseCondition w s with inputs := .packet p :: s.inputs }
  | _ => { s with inputs := .packet p :: s.inputs }

end Sys2Proof.Machine
end

