-- ==== Sys2Proof/Machine/Step.lean ====
section
/-! DEFINITION. One step of the machine, and how a given instruction comes to run next (log 5). -/

namespace Sys2Proof.Machine

open Sys2Proof

/-- One step: the schedule's next entry, consumed before it runs; with an empty schedule the dispatcher. -/
def step (s : State) : Host.Outcome State Fault Refusal :=
  match s.inputs with
  | [] => runDispatcher s
  | .agent a :: rest => agentStep a { s with inputs := rest }
  | .dispatch :: rest => runDispatcher { s with inputs := rest }
  | .packet p :: rest => runPacket p { s with inputs := rest }

/-- The state whose next step runs the instruction with these bits, numbered as the opcode table does; a
width no format has leaves the state as it is. -/
def State.withFetchWord (s : State) (nbits w : Nat) : State :=
  match packetOfTable nbits w with
  | some p => withPacket p s
  | none => s

end Sys2Proof.Machine
end

