-- ==== Sys2Proof/WellFormed.lean ====
section
/-! DEFINITION. Which terms of `Instr` are instructions: a row that the opcode table matches "only after the
exact rows" holds no word of an earlier row (`spec/30_encoding.md` R92, R97, `spec/opcode_table.json`). -/

namespace Sys2Proof

/-- R97: a (`dir`, `kind`) pair the SIE cannot produce on Endpoint `ep` (0 or 1). -/
def badKindOk (ep : BitVec 1) (dir : BitVec 1) (kind : BitVec 4) : Bool :=
  !((ep == 0 && dir == 0 && (kind == 0b0001 || kind == 0b1101)) ||
    (ep == 1 && dir == 0 && kind == 0b0001) ||
    (dir == 1 && kind == 0b1001))

/-- R97: a reserved `src`, a reserved bus `kind`, or a nonzero field that R81 fixes at 0. -/
def refusedOk (src : BitVec 3) (ep : BitVec 4) (dir : BitVec 1) (kind : BitVec 4) : Bool :=
  (src == 5 || src == 6 || src == 7) ||
  ((src == 0 || src == 1 || src == 4) && !(ep == 0 && dir == 0 && kind == 0)) ||
  (src == 3 && !(ep == 0 && dir == 0 && (kind == 0 || kind == 1)))

/-- R91: a request no other row of R90 takes. -/
def unrecognizedOk (bm br : Byte) : Bool :=
  !((bm == 0x80 && br == 0x06) || (bm == 0x81 && br == 0x06) || (bm == 0x00 && br == 0x05) ||
    (bm == 0x00 && br == 0x09) || (bm == 0x01 && br == 0x0B) || (bm == 0x21 && br == 0x09) ||
    (bm == 0x21 && br == 0x0A) || (bm == 0xA1 && br == 0x01))

/-- The well-formed instructions. -/
def Instr.wf : Instr → Bool
  | .evSpiByteComplete | .evKeyIrq | .evUsbEp0Setup | .evUsbEp0Out | .evUsbEp0In | .evUsbEp1Out
  | .evUsbEp1In | .evUsbBusReset | .evUsbBusOther | .evTimerTick => true
  | .evUsbBadKind ep dir kind => badKindOk ep dir kind
  | .evUsbUnknownEp ep _ _ => !(ep == 0 || ep == 1)
  | .evRefused src ep dir kind => refusedOk src ep dir kind
  | .callStartExchange _ _ _ | .callInvokeCallback _ | .callInitialize | .callInitDone | .callTerminate
  | .callDisplayValues _ _ | .callServiceInterrupt | .callKeyReadDone | .callEp1Enable | .callEp1Disable
  | .callNotifyNewValues | .callFatal _ | .callModelFault _ => true
  | .wrScanLimit | .wrIntensity | .wrDecode | .wrConfigNormal | .wrPortConfig | .wrConfigShutdown
  | .wrKeyMaskOff | .wrDigit _ _ _ | .rdKeyDebounced => true
  | .getDescriptorDevice _ _ _ | .getDescriptorConfiguration _ _ _ | .getDescriptorString _ _ _
  | .getDescriptorDeviceQualifier _ _ _ => true
  | .getDescriptorOtherDevice ty _ _ _ => !(ty == 0x01 || ty == 0x02 || ty == 0x03 || ty == 0x06)
  | .getDescriptorReport _ _ _ => true
  | .getDescriptorOtherInterface ty _ _ _ => !(ty == 0x22)
  | .setAddress _ _ _ | .setConfiguration _ _ _ | .setInterface _ _ _ | .hidSetReport _ _ _
  | .hidSetIdle _ _ _ | .hidGetReport _ _ _ => true
  | .unrecognized bm br _ _ _ => unrecognizedOk bm br
  | .hidReport _ _ | .hidReportDecode _ _ => true

/-- The frames of R94 are pairwise different under the configuration, and no digit register is the register
of another write frame: then a frame has one reading (log 10). -/
def Config.framesDistinct (c : Config) : Bool :=
  allDistinct ([c.regScanLimit, c.regIntensity, c.regDecode, c.regConfig, c.regPortConfig, c.regKeyMask] ++
    c.digitReg.toList) && c.initConfig != c.termConfig

end Sys2Proof
end

