-- ==== Sys2Proof/Safety.lean ====
section
/-! DEFINITION. What the claims say of a state: the block's invariants, in the terms of the spec. -/

namespace Sys2Proof.Machine

open Sys2Proof

/-- R253: "a run with no `MFAULT` in its trace is a run inside the source's contract". -/
def insideContract (s : State) : Prop := ∀ c, Event.modelFault c ∉ s.trace

/-- A byte exchange is in progress. -/
def ByteInFlight (s : State) : Prop := s.shBusy = true ∧ s.spiIf = false ∧ s.shRxFull = false

/-- A received byte waits for the byte-complete handler. -/
def ByteWaiting (s : State) : Prop := s.shBusy = false ∧ s.spiIf = true ∧ s.shRxFull = true

/-- The engine invariant of `spec/40_spi_engine.md` R126, its second part in the form a step keeps: while a
transaction is active exactly one byte is in flight or waiting, and an idle engine has none. -/
structure EngineInv (s : State) : Prop where
  idle : s.spiActive = false →
    s.shBusy = false ∧ s.shRxFull = false ∧ s.spiIf = false ∧ s.spiCs = false
  active : s.spiActive = true →
    s.spiRemaining ≠ 0 ∧ s.spiCs = true ∧ (ByteInFlight s ∨ ByteWaiting s)

/-- R33: `configured` is true exactly while Endpoint 1 is enabled. R220: while it is not, both descriptors of
Endpoint 1 are CPU-owned. R221: while it is, `EP1_OUT` is armed or a completion of it waits in the queue. R202, R235:
Endpoint 1 is never stalled. -/
structure Endpoint1Inv (s : State) : Prop where
  configured_eq : s.configured = s.ep1Enabled
  disabled : s.ep1Enabled = false → s.bdEp1Out.own = .cpu ∧ s.bdEp1In.own = .cpu
  enabled : s.ep1Enabled = true → s.bdEp1Out.own = .sie ∨ (1, Dir.out) ∈ s.trnFifo
  unstalled : s.bdEp1Out.stall = false ∧ s.bdEp1In.stall = false

/-- R198: `EP0_OUT` is armed, or a completion of it waits in the queue. It is never stalled. -/
structure Ep0OutInv (s : State) : Prop where
  armed : s.bdEp0Out.own = .sie ∨ (0, Dir.out) ∈ s.trnFifo
  unstalled : s.bdEp0Out.stall = false

/-- C1, R227: the stored values fit the wire. -/
def ValuesInv (s : State) : Prop := s.value0.toNat < 1048576 ∧ s.value1.toNat < 1048576

/-- The next step runs this instruction from a packet of the schedule. -/
def nextPacketRuns (i : Instr) (s : State) : Prop :=
  ∃ p rest, s.inputs = .packet p :: rest ∧ decode s.cfg p = .ok i

/-- What the spec lets no step but power-on change: the parameters and the decimal-point digit (R29, R43). -/
def sameConstants (s t : State) : Prop := t.cfg = s.cfg ∧ t.dpPos = s.dpPos

/-- What only grows: the fatal signal is sticky, the fault record and the trace are never cleared (R42, R38). -/
def recordGrows (s t : State) : Prop :=
  (s.fatal = true → t.fatal = true) ∧ s.faults <+: t.faults ∧ s.trace <+: t.trace

/-! ### Memory in a statement -/

/-- The bytes from `a` on are `bs`, each written. -/
def BytesAt (m : Memory) (a : Nat) (bs : List Byte) : Prop :=
  ∀ k, k < bs.length → m.read? (a + k) = bs[k]?

/-- `m` is the memory of `s` with `bs` stored from `a` on: those bytes read as stored, every other address
reads as before (R62). -/
def StoredAt (s : State) (a : Nat) (bs : List Byte) (m : Memory) : Prop :=
  BytesAt m a bs ∧ ∀ x, (x < a ∨ a + bs.length ≤ x) → m.read? x = s.ram.read? x

/-- No address of `a .. a+n-1` lies in the buffer of a descriptor the SIE owns: the CORE may read and write there
(R73, R301). -/
def coreMayAccess (s : State) (a n : Nat) : Prop :=
  ∀ e x, (s.bd e).own = .sie → (epBuffer s.cfg e).1 ≤ x → x < (epBuffer s.cfg e).1 + (epBuffer s.cfg e).2 →
    ¬(a ≤ x ∧ x < a + n)

/-- The causes a CORE read of `a .. a+n-1` records in the order it records them: `BD_OWNERSHIP` where the SIE owns one
of the addresses (R301), then `UNWRITTEN_READ` where one holds no value (R53). -/
def ReadCauses (s : State) (a n : Nat) (causes : List ModelCause) : Prop :=
  ∃ owner unwritten, causes = owner ++ unwritten ∧
    (coreMayAccess s a n → owner = []) ∧ (¬coreMayAccess s a n → owner = [.bdOwnership]) ∧
    ((∀ k, k < n → s.ram.read? (a + k) ≠ none) → unwritten = []) ∧
    ((∃ k, k < n ∧ s.ram.read? (a + k) = none) → unwritten = [.unwrittenRead])

/-! ### The states the rules name -/

/-- No transaction is active and no received byte waits: the engine accepts a request (R120). -/
def engineReady (s : State) : Prop := s.spiActive = false ∧ s.shRxFull = false

/-- R120, an accepted request whose first byte is `b`. -/
def exchangeStarted (buf : Word16) (len : Byte) (cb : Callback) (b : Byte) (s : State) : State :=
  { s with
    spiActive := true, spiPtr := buf, spiRemaining := len, spiCallback := cb, spiCs := true,
    shTx := b, shBusy := true, trace := s.trace ++ [.cs true, .tx b] }

/-- What R120 raises at a request of a positive even length while the engine is not ready. -/
def slotFailures (s : State) : List FatalCause :=
  (if s.spiActive = true then [.spiBusy] else []) ++ (if s.shRxFull = true then [.spiStaleRx] else [])

/-- R250 for each cause of the list, in its order. -/
def signalled (cs : List FatalCause) (s : State) : State :=
  { s with
    fatal := s.fatal || !cs.isEmpty
    faults := s.faults ++ cs.map .fatal
    trace := s.trace ++ cs.map .fatal }

/-- R253. -/
def modelFaulted (c : ModelCause) (s : State) : State :=
  { s with faults := s.faults ++ [.model c], trace := s.trace ++ [.modelFault c] }

/-- R36: `EP0_IN` armed at its buffer. -/
def armedEp0In (cnt : BitVec 10) (dts : Toggle) (s : State) : State :=
  { s with
    bdEp0In := { own := .sie, dts := dts, cnt := cnt, adr := s.cfg.addrEp0In, stall := false, pid := s.bdEp0In.pid }
    trace := s.trace ++ [.arm .ep0In cnt dts] }

/-- R36: `EP0_OUT` armed at its buffer for 32 bytes (R198). -/
def armedEp0Out (dts : Toggle) (s : State) : State :=
  { s with
    bdEp0Out := { own := .sie, dts := dts, cnt := 32, adr := s.cfg.addrEp0Out, stall := false, pid := s.bdEp0Out.pid }
    trace := s.trace ++ [.arm .ep0Out 32 dts] }

/-- R36: `EP1_OUT` armed at its buffer for 5 bytes. -/
def armedEp1Out (dts : Toggle) (s : State) : State :=
  { s with
    bdEp1Out := { own := .sie, dts := dts, cnt := 5, adr := s.cfg.addrEp1Out, stall := false, pid := s.bdEp1Out.pid }
    trace := s.trace ++ [.arm .ep1Out 5 dts] }

/-- R36: `EP1_IN` armed at its buffer for 5 bytes. -/
def armedEp1In (dts : Toggle) (s : State) : State :=
  { s with
    bdEp1In := { own := .sie, dts := dts, cnt := 5, adr := s.cfg.addrEp1In, stall := false, pid := s.bdEp1In.pid }
    trace := s.trace ++ [.arm .ep1In 5 dts] }

/-- R36: `EP0_IN` stalled. -/
def stalledEp0In (s : State) : State :=
  { s with bdEp0In := { s.bdEp0In with stall := true, own := .sie }, trace := s.trace ++ [.stall .ep0In] }

/-- A descriptor after `Reclaim` (R36). -/
def reclaimed (b : BufferDescriptor) : BufferDescriptor := { b with own := .cpu, stall := false }

/-- R171, R34: the control-transfer state a Setup leaves to its request, every field at its reset value. -/
def transferCancelled (s : State) : State :=
  { s with
    bdEp0In := if s.bdEp0In.own = .sie ∨ s.bdEp0In.stall = true then reclaimed s.bdEp0In else s.bdEp0In
    trace := s.trace ++ (if s.bdEp0In.own = .sie ∨ s.bdEp0In.stall = true then [.reclaim .ep0In] else [])
    ctlDir := .none, ctlSrcTable := .device, ctlSrcOff := 0, ctlDst := 0, ctlRemaining := 0, ctlToggle := 0,
    ctlZlp := false, ctlStatus := .none, pendAddr := none }

/-- R198: the toggle `EP0_OUT` is armed with. -/
def expectedOutToggle (s : State) : Toggle :=
  if s.ctlDir = .h2d then s.ctlToggle else if s.ctlDir = .d2h ∨ s.ctlStatus = .statusOut then 1 else 0

/-- R170: the stage a Setup's request leaves: a read begins its data stage, SetReport of the output type waits for
data, an accepted request without data is in its status stage, a stalled one is over. -/
def requestStage (c : Config) : Instr → Stage
  | .getDescriptorDevice _ _ _ | .getDescriptorConfiguration _ _ _ | .getDescriptorReport _ _ _ => .dataStageRead
  | .getDescriptorString index _ _ => if index.toNat ≤ 2 then .dataStageRead else .idle
  | .setAddress v _ _ => if v.toNat < 128 then .statusStage else .idle
  | .setConfiguration v _ _ =>
    if v.extractLsb' 0 8 = 0 ∨ v.extractLsb' 0 8 = c.configValue then .statusStage else .idle
  | .setInterface v _ _ => if v = 0 then .statusStage else .idle
  | .hidSetReport v _ _ => if v.extractLsb' 8 8 = 2 then .dataStageWrite else .idle
  | .hidSetIdle _ _ _ => .statusStage
  | _ => .idle

/-! ### Containment: the buffers and the control transfer stay inside their bounds -/

/-- R36, R37, R47: every descriptor points at its own buffer and counts no more bytes than it holds. -/
def BuffersInv (s : State) : Prop :=
  ∀ e, (s.bd e).adr.toNat = (epBuffer s.cfg e).1 ∧ (s.bd e).cnt.toNat ≤ (epBuffer s.cfg e).2

/-- R193, R195: the bytes still to send lie in the table, the bytes still expected in the sink buffer. -/
structure TransferInv (s : State) : Prop where
  read : s.ctlDir = .d2h → s.ctlSrcOff.toNat + s.ctlRemaining.toNat ≤ (s.cfg.rom s.ctlSrcTable).length
  write : s.ctlDir = .h2d → s.ctlDst.toNat + s.ctlRemaining.toNat ≤ 32

/-! ### What a step reports -/

/-- R38: the trace of `t` is that of `s` and new entries, and an output that changed has its entry among them. -/
def outputsReported (s t : State) : Prop :=
  ∃ new, t.trace = s.trace ++ new ∧
    (t.spiCs ≠ s.spiCs → .cs t.spiCs ∈ new) ∧ (t.keyIe ≠ s.keyIe → .keyIe t.keyIe ∈ new) ∧
    (t.usbAddr ≠ s.usbAddr → .addr t.usbAddr ∈ new) ∧ (t.ep1Enabled ≠ s.ep1Enabled → .ep1Enable t.ep1Enabled ∈ new) ∧
    (t.fatal ≠ s.fatal → ∃ c, .fatal c ∈ new)

/-! ### Whole transactions -/

/-- One frame of a transaction: the two bytes sent and the two received. -/
structure FrameExchange where
  sent0 : Byte
  sent1 : Byte
  received0 : Byte
  received1 : Byte
  deriving DecidableEq, Repr

/-- The trace entries of one frame (R123). -/
def FrameExchange.events (f : FrameExchange) : List Event :=
  [.cs true, .tx f.sent0, .rx f.received0, .tx f.sent1, .rx f.received1, .cs false]

/-- The schedule in which the SHIFTER answers each byte and the byte-complete event follows at once (R99). -/
def FrameExchange.schedule (f : FrameExchange) : List Input :=
  [.agent (.shifter f.received0), .packet (.evt 0), .agent (.shifter f.received1), .packet (.evt 0)]

/-- The packets of a control read: the chunks of at most 32 bytes in order, the first with this toggle; no
byte left is one empty chunk (R193, R201). -/
def readPackets : Nat → Toggle → List Byte → List HostEvent
  | 0, _, _ => []
  | fuel + 1, d, bytes =>
    if bytes.length ≤ 32 then [.data .ep0In d bytes]
    else .data .ep0In d (bytes.take 32) :: readPackets fuel (d ^^^ 1) (bytes.drop 32)

end Sys2Proof.Machine
end

