-- ==== Sys2Proof/Certificates/Slice0/Obligations.lean ====
section
/-! DEFINITION. The statements for the provers, in the order of the spec's files. -/

open Sys2Proof Sys2Proof.Machine

/-! ### Reset -/

/-- R52 and R291, under every configuration: every piece of state after power-on, and the reset sequence, which
arms `EP0_OUT` for 32 bytes with toggle 0. The fields `draws`, `hostLog` and `inputs` are the model's own (log 17)
and are not stated. -/
def Obligations.ResetState : Prop :=
  ∀ c : Config,
    (let s := State.powerOn c
     s.spiActive = false ∧ s.spiPtr = 0 ∧ s.spiRemaining = 0 ∧ s.spiCallback = .none ∧ s.spiCs = false ∧
     s.shBusy = false ∧ s.shRxFull = false ∧ s.shTx = 0 ∧ s.shRx = 0 ∧
     s.value 0 = c.initV0 ∧ s.value 1 = c.initV1 ∧ s.dpPos = c.dpPos ∧ s.keyIe = false ∧ s.keyIf = false ∧
     s.usbAddr = 0 ∧ s.pendAddr = none ∧ s.configured = false ∧ s.ctlDir = .none ∧ s.ctlStatus = .none ∧
     s.ctlSrcTable = .device ∧ s.ctlSrcOff = 0 ∧ s.ctlDst = 0 ∧ s.ctlRemaining = 0 ∧ s.ctlToggle = 0 ∧
     s.ctlZlp = false ∧
     (∀ e, s.bd e = { own := .cpu, dts := 0, cnt := 0, adr := BitVec.ofNat 16 (epBuffer c e).1, stall := false, pid := .out }) ∧
     s.ep1Enabled = false ∧ s.ep1OutDts = 0 ∧ s.ep1InDts = 0 ∧
     s.spiIf = false ∧ usbTrnIf s = false ∧ s.busResetIf = false ∧ s.busOtherIf = false ∧ s.timerIf = false ∧
     s.trnFifo = [] ∧ s.fatal = false ∧ s.faults = [] ∧ s.trace = [] ∧ (∀ a, s.ram.read? a = none) ∧ s.cfg = c) ∧
    State.resetWith c = armedEp0Out 0 (State.powerOn c) ∧
    (State.resetWith c).trace = [.arm .ep0Out 32 0]

/-- The invariants below hold right after reset, under every configuration; `State.reset` is the reset under the
default configuration, which is the model's choice (log 2). -/
def Obligations.ResetKeepsInvariants : Prop :=
  State.reset = State.resetWith Config.default ∧
  ∀ c : Config,
    EngineInv (State.resetWith c) ∧ Ep0OutInv (State.resetWith c) ∧ Endpoint1Inv (State.resetWith c) ∧
    ValuesInv (State.resetWith c) ∧ BuffersInv (State.resetWith c) ∧ TransferInv (State.resetWith c) ∧
    (State.resetWith c).ram.wf = true

/-! ### Encoding, decoding, the step -/

/-- Decode and encode agree: under a configuration whose frames are distinct, the decoder reads from the words of
a well-formed instruction that instruction, with every operand. -/
def Obligations.DecodeOfEncode : Prop :=
  ∀ (c : Config) (i : Instr), c.framesDistinct = true → i.wf = true → decode c (encode c i) = .ok i

/-- Encode and decode agree: a packet that decodes is the encoding of what it decodes to, which is well-formed.
So no bit of a packet is dropped and no two packets decode to one instruction. -/
def Obligations.EncodeOfDecode : Prop :=
  ∀ (c : Config) (p : Packet) (i : Instr), decode c p = .ok i → encode c i = p ∧ i.wf = true

/-- Words written out from the encodings of `spec/30_encoding.md` decode to the instructions they stand for: some of
each of the five formats. A frame is read under the default configuration (log 2, 10), whose `P_REG_SCAN_LIMIT` is
0x10, `P_INIT_SCAN_LIMIT` 0x05, `P_DIGIT_REG(1, 1)` 0x29 and `P_REG_KEY_DEBOUNCED` 0. The place of an operand in an
`F_CALL` word is the model's (log 9), and so is the direction that tells the two report rows apart (log 11). -/
def Obligations.DecodeOfWords : Prop :=
  (decode Config.default (.spi16 0b0_0010000_00000101) = .ok .wrScanLimit ∧
    decode Config.default (.spi16 0b0_0101001_10000100) = .ok (.wrDigit 1 1 0x84) ∧
    decode Config.default (.spi16 0b1_0000000_00000000) = .ok .rdKeyDebounced) ∧
  ∀ c : Config,
    decode c (.evt 0b010_0000_0_1101) = .ok .evUsbEp0Setup ∧
    decode c (.evt 0b010_0001_1_1001) = .ok .evUsbEp1In ∧
    decode c (.evt 0b101_0000_0_0000) = .ok (.evRefused 5 0 0 0) ∧
    decode c (.call 0x12) = .ok .callTerminate ∧
    decode c (.setup 0x0012_0000_0100_06_80) = .ok (.getDescriptorDevice 0 0 18) ∧
    decode c (.setup 0x0000_0000_0005_05_00) = .ok (.setAddress 5 0 0) ∧
    decode c (.reportIn 0x00_07_B0_01_C8) = .ok (.hidReport 456 123) ∧
    decode c (.reportOut 0x00_07_B0_01_C8) = .ok (.hidReportDecode 456 123)

/-- A step whose schedule has a packet next runs the instruction the packet decodes to, on the state with the
packet consumed; a packet that is no instruction is refused. -/
def Obligations.StepRunsPacket : Prop :=
  ∀ (s : State) (p : Packet) (rest : List Input), s.inputs = .packet p :: rest →
    (∀ i, decode s.cfg p = .ok i → step s = exec i { s with inputs := rest }) ∧
    (∀ e, decode s.cfg p = .error e → step s = .refused (.undecodable e))

/-- R256: with an empty schedule, or the dispatcher's turn, the step runs the entry point that is enabled first in
`P_DISPATCH_ORDER`, by its event word; with none enabled nothing happens (log 6). The event words are those of
R256's table, the USB one read from the oldest completion; the `kind` of an unknown endpoint's is the model's (log 27). -/
def Obligations.StepDispatches : Prop :=
  ∀ (s t : State), (s.inputs = [] ∧ t = s) ∨ (∃ rest, s.inputs = .dispatch :: rest ∧ t = { s with inputs := rest }) →
    (t.cfg.dispatchOrder.find? (enabled t) = none → step s = .next t) ∧
    (t.cfg.dispatchOrder.find? (enabled t) = some .spiByteComplete → t.spiIf = true ∧ step s = exec .evSpiByteComplete t) ∧
    (t.cfg.dispatchOrder.find? (enabled t) = some .keyIrq →
      (t.keyIf = true ∧ t.keyIe = true) ∧ step s = exec .evKeyIrq t) ∧
    (t.cfg.dispatchOrder.find? (enabled t) = some .usbTransaction →
      ∃ ep d rest, t.trnFifo = (ep, d) :: rest ∧
        (ep = 0 → d = .out → t.bdEp0Out.pid = .setup → step s = exec .evUsbEp0Setup t) ∧
        (ep = 0 → d = .out → t.bdEp0Out.pid ≠ .setup → step s = exec .evUsbEp0Out t) ∧
        (ep = 0 → d = .inn → step s = exec .evUsbEp0In t) ∧
        (ep = 1 → d = .out → step s = exec .evUsbEp1Out t) ∧
        (ep = 1 → d = .inn → step s = exec .evUsbEp1In t) ∧
        (ep ≠ 0 → ep ≠ 1 → step s = exec (.evUsbUnknownEp ep (if d = .out then 0 else 1) 0) t)) ∧
    (t.cfg.dispatchOrder.find? (enabled t) = some .usbBusEvent →
      (t.busResetIf = true ∨ t.busOtherIf = true) ∧
      step s = exec (if t.busResetIf = true then .evUsbBusReset else .evUsbBusOther) t) ∧
    (t.cfg.dispatchOrder.find? (enabled t) = some .timerTick → t.timerIf = true ∧ step s = exec .evTimerTick t)

/-- The dispatcher's step is never refused: what it runs is a well-formed instruction and no refused row (log 6). -/
def Obligations.DispatcherNeverRefuses : Prop :=
  ∀ (s : State), (s.inputs = [] ∨ ∃ rest, s.inputs = .dispatch :: rest) →
    (∀ i, nextEvent s = some i → i.wf = true ∧ ∀ ep dir kind, i ≠ .evUsbBadKind ep dir kind) ∧
    ∀ r, step s ≠ .refused r

/-- R61, R62, R53, R301: `MemWrite` inside the space stores the bytes in order and leaves every other address; into an
SIE-owned buffer it is recorded as `BD_OWNERSHIP` and stores nothing. `MemRead` inside the space returns the bytes in
order, each one never written a draw, and records first `BD_OWNERSHIP` where the SIE owns one of them, then one
`UNWRITTEN_READ` where one or more was never written; nothing else changes. Past 2^16 neither has a step. The model's
choices: what an access against ownership does beside its record (log 12), how draws are counted (log 3), the stuck
access (log 13). -/
def Obligations.MemoryAccesses : Prop :=
  ∀ (s : State) (a n : Nat) (bs : List Byte),
    (a + bs.length ≤ 65536 → coreMayAccess s a bs.length →
      ∃ m, StoredAt s a bs m ∧ memWrite a bs s = .ok { s with ram := m }) ∧
    (a + bs.length ≤ 65536 → ¬coreMayAccess s a bs.length → memWrite a bs s = .ok (modelFaulted .bdOwnership s)) ∧
    (65536 < a + bs.length → memWrite a bs s = .error .addressPastTop) ∧
    (a + n ≤ 65536 → ∃ bytes causes d, ReadCauses s a n causes ∧ bytes.length = n ∧
      (∀ k b, k < n → s.ram.read? (a + k) = some b → bytes[k]? = some b) ∧
      ((∀ k, k < n → s.ram.read? (a + k) ≠ none) → d = s.draws) ∧
      ((∃ k, k < n ∧ s.ram.read? (a + k) = none) → d = s.draws + n) ∧
      memRead a n s = .ok (bytes, { s with
        draws := d
        faults := s.faults ++ causes.map .model
        trace := s.trace ++ causes.map .modelFault })) ∧
    (65536 < a + n → memRead a n s = .error .addressPastTop)

/-! ### Memory -/

/-- R73, R301: no CORE write changes a byte of a buffer the SIE owns: it is recorded as `BD_OWNERSHIP` and changes
nothing else (log 12). -/
def Obligations.SieBufferKept : Prop :=
  ∀ (s : State) (e : BdId) (a : Nat) (bs : List Byte), (s.bd e).own = .sie →
    (∀ x, (epBuffer s.cfg e).1 ≤ x → x < (epBuffer s.cfg e).1 + (epBuffer s.cfg e).2 →
      (coreWrite a bs s).ram.read? x = s.ram.read? x) ∧
    (∀ x, (epBuffer s.cfg e).1 ≤ x → x < (epBuffer s.cfg e).1 + (epBuffer s.cfg e).2 → a ≤ x → x < a + bs.length →
      coreWrite a bs s = modelFaulted .bdOwnership s)

/-- R301, R253: `Arm` and `Stall` of a descriptor the SIE owns, and a read of one of its fields, are recorded as
`BD_OWNERSHIP` and change nothing else (log 12); of one the CPU owns the read changes nothing, and the two write its
fields, its ownership last, and no other descriptor (R36). -/
def Obligations.DescriptorPrimitives : Prop :=
  ∀ (s : State) (e : BdId) (adr : Word16) (cnt : BitVec 10) (dts : Toggle),
    ((s.bd e).own = .sie → arm e adr cnt dts s = modelFaulted .bdOwnership s ∧
      stall e s = modelFaulted .bdOwnership s ∧ readField e s = modelFaulted .bdOwnership s) ∧
    ((s.bd e).own = .cpu →
      readField e s = s ∧
      (arm e adr cnt dts s).bd e =
        { own := .sie, dts := dts, cnt := cnt, adr := adr, stall := false, pid := (s.bd e).pid } ∧
      (arm e adr cnt dts s).trace = s.trace ++ [.arm e cnt dts] ∧
      (stall e s).bd e = { s.bd e with stall := true, own := .sie } ∧
      (stall e s).trace = s.trace ++ [.stall e]) ∧
    (reclaim e s).bd e = reclaimed (s.bd e) ∧ (reclaim e s).trace = s.trace ++ [.reclaim e] ∧
    (∀ e', e' ≠ e → (arm e adr cnt dts s).bd e' = s.bd e' ∧ (stall e s).bd e' = s.bd e' ∧
      (reclaim e s).bd e' = s.bd e') ∧
    (arm e adr cnt dts s).ram = s.ram ∧ (stall e s).ram = s.ram ∧ (reclaim e s).ram = s.ram

/-! ### The SPI engine -/

/-- R120, the instruction `StartExchange`, every form: a request that passes the four checks starts the
transaction and sends the buffer's first byte; one that fails a check raises every failing cause in the order
written and changes nothing else. A first byte nothing has written is a draw, recorded (R53), and one in a buffer the
SIE owns is recorded before that (R301). Beyond R120 and R53 it rests on the model's choices: such a byte is sent all
the same (log 12), a buffer that passes 2^16 is accepted (log 14), and a byte outside the buffers that nothing has
written reads as a draw, too (log 3, 25). -/
def Obligations.StartExchangeRuns : Prop :=
  ∀ (s : State) (buf : Word16) (len : Byte) (cb : Callback),
    (engineReady s → len ≠ 0 → len.toNat % 2 = 0 →
      (∀ b, s.ram.read? buf.toNat = some b → coreMayAccess s buf.toNat 1 →
        exec (.callStartExchange buf len cb) s = .next (exchangeStarted buf len cb b s)) ∧
      ∃ b causes n, ReadCauses s buf.toNat 1 causes ∧
        (∀ b', s.ram.read? buf.toNat = some b' → b = b' ∧ n = s.draws) ∧
        exec (.callStartExchange buf len cb) s = .next { exchangeStarted buf len cb b s with
          draws := n
          faults := s.faults ++ causes.map .model
          trace := s.trace ++ [.cs true] ++ causes.map .modelFault ++ [.tx b] }) ∧
    (¬(engineReady s ∧ len ≠ 0 ∧ len.toNat % 2 = 0) →
      ∃ fatals models,
        fatals = (if s.spiActive = true then [FatalCause.spiBusy] else []) ++
          (if len = 0 then [.spiZeroLength] else []) ++ (if s.shRxFull = true then [.spiStaleRx] else []) ∧
        models = (if len.toNat % 2 = 1 then [ModelCause.spiOddLength] else []) ∧
        exec (.callStartExchange buf len cb) s = .next { s with
          fatal := s.fatal || !fatals.isEmpty
          faults := s.faults ++ fatals.map .fatal ++ models.map .model
          trace := s.trace ++ fatals.map .fatal ++ models.map .modelFault })

/-- R264, R121, a byte of the middle: the received byte goes to the slot just sent, and the next byte is sent, at a
command-pair boundary between a deassertion and an assertion of chip-select. A slot in a buffer the SIE owns is recorded
and kept (R73), a next byte in one is recorded, and one that nothing has written is a recorded draw (R53); beside the
record the transaction goes on, which is the model's choice (log 12). -/
def Obligations.ByteCompleteContinues : Prop :=
  ∀ s : State, s.spiIf = true → s.spiActive = true → s.spiRemaining ≠ 1 →
    ∃ m slot b causes n,
      (coreMayAccess s s.spiPtr.toNat 1 → StoredAt s s.spiPtr.toNat [s.shRx] m ∧ slot = []) ∧
      (¬coreMayAccess s s.spiPtr.toNat 1 → m = s.ram ∧ slot = [ModelCause.bdOwnership]) ∧
      ReadCauses s (s.spiPtr + 1).toNat 1 causes ∧
      (∀ b', s.ram.read? (s.spiPtr + 1).toNat = some b' → b = b' ∧ n = s.draws) ∧
      exec .evSpiByteComplete s = .next { s with
        spiIf := false
        shRxFull := false
        ram := m
        spiPtr := s.spiPtr + 1
        spiRemaining := s.spiRemaining - 1
        spiCs := if (s.spiRemaining - 1).toNat % 2 = 0 then true else s.spiCs
        shTx := b
        shBusy := true
        draws := n
        faults := s.faults ++ slot.map .model ++ causes.map .model
        trace := s.trace ++ [.rx s.shRx] ++ slot.map .modelFault ++
          (if (s.spiRemaining - 1).toNat % 2 = 0 then [.cs false, .cs true] else []) ++
          causes.map .modelFault ++ [.tx b] }

/-- R264, R121, R304, the last byte: the received byte is stored, chip-select is deasserted, the slot is free, and
then the callback runs, in the same step. A slot in a buffer the SIE owns is recorded and kept (R73), and the
transaction ends all the same, which is the model's choice (log 12). A byte-complete event with no active transaction
is the model fault `SPI_SPURIOUS` and nothing else but the cleared flag. -/
def Obligations.ByteCompleteEnds : Prop :=
  ∀ s : State, s.spiIf = true →
    (s.spiActive = true → s.spiRemaining = 1 →
      ∃ m slot t,
        (coreMayAccess s s.spiPtr.toNat 1 → StoredAt s s.spiPtr.toNat [s.shRx] m ∧ slot = []) ∧
        (¬coreMayAccess s s.spiPtr.toNat 1 → m = s.ram ∧ slot = [ModelCause.bdOwnership]) ∧
        exec .evSpiByteComplete s = .next t ∧
        exec (.callInvokeCallback s.spiCallback) { s with
          spiIf := false
          shRxFull := false
          ram := m
          spiPtr := s.spiPtr + 1
          spiRemaining := 0
          spiCs := false
          spiActive := false
          spiCallback := .none
          faults := s.faults ++ slot.map .model
          trace := s.trace ++ [.rx s.shRx] ++ slot.map .modelFault ++ [.cs false] } = .next t) ∧
    (s.spiActive = false →
      exec .evSpiByteComplete s = .next (modelFaulted .spiSpurious { s with spiIf := false }))

/-- What R123 and R124 derive: one transaction from its start to its end. From an engine that is ready, `StartExchange` on a
buffer that holds the frames' bytes, then the SHIFTER answering each byte and the event that follows it, gives the
trace of R123, the answers in the buffer's slots, every other address as before, and the callback run once, on the
freed engine. -/
def Obligations.TransactionRuns : Prop :=
  ∀ (s : State) (buf : Word16) (cb : Callback) (frames : List FrameExchange) (rest : List Input),
    engineReady s → s.shBusy = false → s.spiIf = false → frames ≠ [] → 2 * frames.length < 256 →
    buf.toNat + 2 * frames.length ≤ 65536 → coreMayAccess s buf.toNat (2 * frames.length) →
    BytesAt s.ram buf.toNat (frames.flatMap fun f => [f.sent0, f.sent1]) →
    ∃ m t u, StoredAt s buf.toNat (frames.flatMap fun f => [f.received0, f.received1]) m ∧
      exec (.callStartExchange buf (BitVec.ofNat 8 (2 * frames.length)) cb) s = .next t ∧
      Host.Core.run core (4 * frames.length) { t with inputs := frames.flatMap (·.schedule) ++ rest } = .next u ∧
      exec (.callInvokeCallback cb) { s with
        spiPtr := buf + BitVec.ofNat 16 (2 * frames.length)
        spiRemaining := 0
        spiCallback := .none
        spiCs := false
        shTx := (frames.getLast?.map (·.sent1)).getD s.shTx
        shRx := (frames.getLast?.map (·.received1)).getD s.shRx
        trace := s.trace ++ frames.flatMap (·.events)
        ram := m
        inputs := rest } = .next u

/-- R122, R146: `InvokeCallback` of `CB_NONE` changes nothing; the other two run their rule. `InitDone` enables the
key interrupt, reports it, and changes nothing else. -/
def Obligations.CallbacksRun : Prop :=
  ∀ s : State, exec (.callInvokeCallback .none) s = .next s ∧
    exec .callInitDone s = .next { s with keyIe := true, trace := s.trace ++ [.keyIe true] } ∧
    exec (.callInvokeCallback .initDone) s = .next { s with keyIe := true, trace := s.trace ++ [.keyIe true] } ∧
    ∃ t, exec .callKeyReadDone s = .next t ∧ exec (.callInvokeCallback .keyReadDone) s = .next t

/-! ### The display and key-scan driver -/

/-- R145, R141: `Initialize` writes the ten initialization bytes and requests their exchange with `CB_INIT_DONE`;
while the engine is not ready the request is lost and the bytes stay written. -/
def Obligations.InitializeRuns : Prop :=
  ∀ s : State, ∃ m, StoredAt s s.cfg.addrBufInit.toNat
      [0#1 ++ s.cfg.regScanLimit, s.cfg.initScanLimit, 0#1 ++ s.cfg.regIntensity, s.cfg.initIntensity,
       0#1 ++ s.cfg.regDecode, s.cfg.initDecode, 0#1 ++ s.cfg.regConfig, s.cfg.initConfig,
       0#1 ++ s.cfg.regPortConfig, s.cfg.initPortConfig] m ∧
    (engineReady s → exec .callInitialize s =
      .next (exchangeStarted s.cfg.addrBufInit 10 .initDone (0#1 ++ s.cfg.regScanLimit) { s with ram := m })) ∧
    (¬engineReady s → exec .callInitialize s = .next (signalled (slotFailures s) { s with ram := m }))

/-- R148, R142: `Terminate` disables the key interrupt first, then writes the four termination bytes and requests
their exchange; while the engine is not ready the request is lost. -/
def Obligations.TerminateRuns : Prop :=
  ∀ s : State, ∃ m, StoredAt s s.cfg.addrBufTerm.toNat
      [0#1 ++ s.cfg.regConfig, s.cfg.termConfig, 0#1 ++ s.cfg.regKeyMask, s.cfg.termKeyMask] m ∧
    (engineReady s → exec .callTerminate s =
      .next (exchangeStarted s.cfg.addrBufTerm 4 .none (0#1 ++ s.cfg.regConfig)
        { s with keyIe := false, trace := s.trace ++ [.keyIe false], ram := m })) ∧
    (¬engineReady s → exec .callTerminate s =
      .next (signalled (slotFailures s) { s with keyIe := false, trace := s.trace ++ [.keyIe false], ram := m }))

/-- R150, R143, R155: `DisplayValues` stores the two values, writes the twelve digit frames in order and requests
their exchange; while the engine is not ready the request is lost and the values are kept. For values up to 999999
the data bytes hold their decimal digits, and no value is drawn; for any value the decimal-point bit stands on digit
`dp_pos` only. -/
def Obligations.DisplayValuesRuns : Prop :=
  ∀ (s : State) (v0 v1 : StoredValue), ∃ m bytes n,
    bytes.length = 24 ∧ StoredAt s s.cfg.addrBufDisp.toNat bytes m ∧
    (∀ (d : Fin 2) (i : Fin 6), bytes[2 * (6 * d.val + i.val)]? = some (0#1 ++ s.cfg.digitRegister d i)) ∧
    (∀ (d : Fin 2) (i : Fin 6), (if d = 0 then v0 else v1).toNat ≤ 999999 →
      bytes[2 * (6 * d.val + i.val) + 1]? =
        some (BitVec.ofNat 8 ((if d = 0 then v0 else v1).toNat / 10 ^ i.val % 10) |||
          (if i = s.dpPos then s.cfg.dpMask else 0))) ∧
    (∀ (d : Fin 2) (i : Fin 6), ∃ b, bytes[2 * (6 * d.val + i.val) + 1]? = some b ∧
      b &&& 0xF0 = if i = s.dpPos then s.cfg.dpMask else 0) ∧
    (v0.toNat ≤ 999999 → v1.toNat ≤ 999999 → n = s.draws) ∧
    (engineReady s → exec (.callDisplayValues v0 v1) s =
      .next (exchangeStarted s.cfg.addrBufDisp 24 .none (0#1 ++ s.cfg.digitRegister 0 0)
        { s with value0 := v0, value1 := v1, draws := n, ram := m })) ∧
    (¬engineReady s → exec (.callDisplayValues v0 v1) s =
      .next (signalled (slotFailures s) { s with value0 := v0, value1 := v1, draws := n, ram := m }))

/-- What R155 derives, with R151 and R95: the six data bytes of a display decode to the value they show, the least significant digit
first. Of any value, a data byte holds a digit in bits 3:0 and beside it only the decimal-point bit, which is set on
digit `dp_pos` and on no other. -/
def Obligations.DigitRoundTrip : Prop :=
  ∀ (c : Config) (dp : Fin 6) (n : Nat) (v : StoredValue),
    (v.toNat ≤ 999999 →
      ((List.range 6).map fun i => (digitByte c dp n v i &&& 0x0F).toNat * 10 ^ i).sum = v.toNat) ∧
    ∀ i : Fin 6, digitByte c dp n v i.val &&& 0xF0 = (if i = dp then c.dpMask else 0) ∧
      (digitByte c dp n v i.val &&& c.dpMask ≠ 0 ↔ i = dp)

/-- R265, R152, R144: a key interrupt clears its flag, writes the two key-read bytes and requests their exchange
with `CB_KEY_READ_DONE`; while the engine is not ready the request is lost. `ServiceInterrupt` does the same
without the flag. -/
def Obligations.KeyInterruptRuns : Prop :=
  ∀ s : State, ∃ m, StoredAt s s.cfg.addrBufKey.toNat [1#1 ++ s.cfg.regKeyDebounced, 0] m ∧
    (engineReady s →
      exec .callServiceInterrupt s =
        .next (exchangeStarted s.cfg.addrBufKey 2 .keyReadDone (1#1 ++ s.cfg.regKeyDebounced) { s with ram := m }) ∧
      (s.keyIf = true → s.keyIe = true → exec .evKeyIrq s =
        .next (exchangeStarted s.cfg.addrBufKey 2 .keyReadDone (1#1 ++ s.cfg.regKeyDebounced)
          { s with keyIf := false, ram := m }))) ∧
    (¬engineReady s →
      exec .callServiceInterrupt s = .next (signalled (slotFailures s) { s with ram := m }) ∧
      (s.keyIf = true → s.keyIe = true →
        exec .evKeyIrq s = .next (signalled (slotFailures s) { s with keyIf := false, ram := m })))

/-- R153, R154: `KeyReadDone` reads the debounced-key byte; if the gate passes it displays the two values swapped
and then notifies the USB layer; otherwise it changes nothing. A key byte nothing has written is a draw, recorded
first (R53). -/
def Obligations.KeyReadDoneRuns : Prop :=
  ∀ s : State, ∃ (k : Byte) (r : State),
    (∀ b, s.ram.read? (s.cfg.addrBufKey.toNat + 1) = some b → k = b ∧ r = s) ∧
    (s.ram.read? (s.cfg.addrBufKey.toNat + 1) = none →
      ∃ n, r = { modelFaulted .unwrittenRead s with draws := n }) ∧
    ((s.cfg.keyGate = .ungated ∨ k &&& s.cfg.keyPressedMask ≠ 0) →
      ∃ t u, exec (.callDisplayValues s.value1 s.value0) r = .next t ∧ exec .callNotifyNewValues t = .next u ∧
        exec .callKeyReadDone s = .next u) ∧
    ((s.cfg.keyGate = .gated ∧ k &&& s.cfg.keyPressedMask = 0) → exec .callKeyReadDone s = .next r)

/-- R94, R84: each command frame as an instruction writes its two bytes at its place in its transaction's buffer
and requests the exchange of that one frame; while the engine is not ready the request is lost. That a frame is
sent this way is the model's choice (log 10). -/
def Obligations.FramesRun : Prop :=
  ∀ (s : State) (i : Instr) (buf : Word16) (off : Nat) (b0 b1 : Byte),
    ((i = .wrScanLimit ∧ buf = s.cfg.addrBufInit ∧ off = 0 ∧ b0 = 0#1 ++ s.cfg.regScanLimit ∧ b1 = s.cfg.initScanLimit) ∨
     (i = .wrIntensity ∧ buf = s.cfg.addrBufInit ∧ off = 2 ∧ b0 = 0#1 ++ s.cfg.regIntensity ∧ b1 = s.cfg.initIntensity) ∨
     (i = .wrDecode ∧ buf = s.cfg.addrBufInit ∧ off = 4 ∧ b0 = 0#1 ++ s.cfg.regDecode ∧ b1 = s.cfg.initDecode) ∨
     (i = .wrConfigNormal ∧ buf = s.cfg.addrBufInit ∧ off = 6 ∧ b0 = 0#1 ++ s.cfg.regConfig ∧ b1 = s.cfg.initConfig) ∨
     (i = .wrPortConfig ∧ buf = s.cfg.addrBufInit ∧ off = 8 ∧ b0 = 0#1 ++ s.cfg.regPortConfig ∧ b1 = s.cfg.initPortConfig) ∨
     (i = .wrConfigShutdown ∧ buf = s.cfg.addrBufTerm ∧ off = 0 ∧ b0 = 0#1 ++ s.cfg.regConfig ∧ b1 = s.cfg.termConfig) ∨
     (i = .wrKeyMaskOff ∧ buf = s.cfg.addrBufTerm ∧ off = 2 ∧ b0 = 0#1 ++ s.cfg.regKeyMask ∧ b1 = s.cfg.termKeyMask) ∨
     (∃ d k, i = .wrDigit d k b1 ∧ buf = s.cfg.addrBufDisp ∧ off = 2 * (6 * d.val + k.val) ∧
       b0 = 0#1 ++ s.cfg.digitRegister d k) ∨
     (i = .rdKeyDebounced ∧ buf = s.cfg.addrBufKey ∧ off = 0 ∧ b0 = 1#1 ++ s.cfg.regKeyDebounced ∧ b1 = 0)) →
    ∃ m, StoredAt s (buf.toNat + off) [b0, b1] m ∧
      (engineReady s → exec i s =
        .next (exchangeStarted (buf + BitVec.ofNat 16 off) 2 .none b0 { s with ram := m })) ∧
      (¬engineReady s → exec i s = .next (signalled (slotFailures s) { s with ram := m }))

/-! ### Endpoint 1 -/

/-- R228: `Ep1Enable` sets both toggles to 0, arms `EP1_OUT`, enables the endpoint, and then initializes the chip.
R229: `Ep1Disable` terminates the chip, then reclaims what the SIE owns of Endpoint 1, `EP1_OUT` first, then disables
the endpoint; the toggles are not changed. -/
def Obligations.EndpointOneSwitches : Prop :=
  ∀ s : State,
    (s.bdEp1Out.own = .cpu →
      ∃ t, exec .callEp1Enable s = .next t ∧
        exec .callInitialize { armedEp1Out 0 { s with ep1OutDts := 0, ep1InDts := 0 } with
          ep1Enabled := true
          trace := s.trace ++ [.arm .ep1Out 5 0, .ep1Enable true] } = .next t) ∧
    ∃ t, exec .callTerminate s = .next t ∧
      exec .callEp1Disable s = .next { t with
        bdEp1Out := if s.bdEp1Out.own = .sie then reclaimed s.bdEp1Out else s.bdEp1Out
        bdEp1In := if s.bdEp1In.own = .sie then reclaimed s.bdEp1In else s.bdEp1In
        ep1Enabled := false
        trace := t.trace ++ (if s.bdEp1Out.own = .sie then [.reclaim .ep1Out] else []) ++
          (if s.bdEp1In.own = .sie then [.reclaim .ep1In] else []) ++ [.ep1Enable false] }

/-- R227: `NotifyNewValues` does nothing while the endpoint is disabled, drops the report with `EP1_IN_OVERRUN`
while the SIE holds the previous one, and otherwise writes the report of the two values modulo 2^20 and arms it with
the toggle of the next report. -/
def Obligations.NotifyRuns : Prop :=
  ∀ s : State,
    (s.ep1Enabled = false → exec .callNotifyNewValues s = .next s) ∧
    (s.ep1Enabled = true → s.bdEp1In.own = .sie →
      exec .callNotifyNewValues s = .next (modelFaulted .ep1InOverrun s)) ∧
    (s.ep1Enabled = true → s.bdEp1In.own = .cpu →
      ∃ m, StoredAt s s.cfg.addrEp1In.toNat
          [s.value0.extractLsb' 0 8, s.value0.extractLsb' 8 8,
           s.value1.extractLsb' 0 4 ++ s.value0.extractLsb' 16 4,
           s.value1.extractLsb' 4 8, s.value1.extractLsb' 12 8] m ∧
        exec .callNotifyNewValues s = .next (armedEp1In s.ep1InDts { s with ram := m }))

/-- R226, R89, R231, the event `EV_USB_EP1_OUT` on its own in the queue: the five buffer bytes are decoded, the two
values displayed, and `EP1_OUT` is armed again with the other toggle, whether or not the display write started; while
the endpoint is disabled only the completion is consumed. A byte nothing has written is a draw, recorded once before
the rest (R53). A stale completion of a descriptor the SIE owns again has its read and its `Arm` recorded as
`BD_OWNERSHIP` (R301), beside which the rule goes on and the descriptor keeps its fields (log 12). -/
def Obligations.EndpointOneOut : Prop :=
  ∀ s : State, s.trnFifo = [(1, .out)] →
    (s.ep1Enabled = false → exec .evUsbEp1Out s = .next { s with trnFifo := [] }) ∧
    (s.ep1Enabled = true →
      ∃ (r0 r1 r2 r3 r4 : Byte) (o r t : State),
        o = (if s.bdEp1Out.own = .sie then modelFaulted .bdOwnership s else s) ∧
        (∀ k b, k < 5 → s.ram.read? (s.cfg.addrEp1Out.toNat + k) = some b → [r0, r1, r2, r3, r4][k]? = some b) ∧
        ((∀ k, k < 5 → s.ram.read? (s.cfg.addrEp1Out.toNat + k) ≠ none) → r = { o with trnFifo := [] }) ∧
        ((∃ k, k < 5 ∧ s.ram.read? (s.cfg.addrEp1Out.toNat + k) = none) →
          ∃ n, r = { modelFaulted .unwrittenRead o with trnFifo := [], draws := n }) ∧
        exec (.callDisplayValues (0#4 ++ r2.extractLsb' 0 4 ++ r1 ++ r0) (0#4 ++ r4 ++ r3 ++ r2.extractLsb' 4 4)) r =
          .next t ∧
        (s.bdEp1Out.own = .cpu →
          exec .evUsbEp1Out s = .next (armedEp1Out (s.ep1OutDts ^^^ 1) { t with ep1OutDts := s.ep1OutDts ^^^ 1 })) ∧
        (s.bdEp1Out.own = .sie →
          exec .evUsbEp1Out s = .next (modelFaulted .bdOwnership { t with ep1OutDts := s.ep1OutDts ^^^ 1 })))

/-- R230, R231, the event `EV_USB_EP1_IN` on its own in the queue: the toggle of the next report flips, and nothing
else but the consumed completion changes; while the endpoint is disabled the toggle does not flip. -/
def Obligations.EndpointOneIn : Prop :=
  ∀ s : State, s.trnFifo = [(1, .inn)] →
    exec .evUsbEp1In s = .next { s with
      trnFifo := []
      ep1InDts := if s.ep1Enabled = true then s.ep1InDts ^^^ 1 else s.ep1InDts }

/-- What R232 derives: for every two values below 2^20, the report `NotifyNewValues` arms, sent back by the host, makes
`OnEp1Out` store the two values. -/
def Obligations.ReportRoundTrip : Prop :=
  ∀ (s t u : State), s.value0.toNat < 2 ^ 20 → s.value1.toNat < 2 ^ 20 → s.ep1Enabled = true →
    s.bdEp1In.own = .cpu → exec .callNotifyNewValues s = .next t → u.ep1Enabled = true → u.trnFifo = [(1, .out)] →
    (∀ k, k < 5 → u.ram.read? (u.cfg.addrEp1Out.toNat + k) = t.ram.read? (s.cfg.addrEp1In.toNat + k)) →
    ∃ w, exec .evUsbEp1Out u = .next w ∧ w.value0 = s.value0 ∧ w.value1 = s.value1

/-- R88, R89, the report rows as instructions: `HID_REPORT` stores the five bytes of the two wire values, report bit
`n` of `value0 + value1 * 2^20` in bit `n mod 8` of byte `n div 8`, in a report buffer the CPU owns;
`HID_REPORT_DECODE` displays the two values, zero-extended. That they act on those is the model's choice (log 11). -/
def Obligations.ReportCodecRuns : Prop :=
  ∀ (s : State) (v0 v1 : WireValue),
    (s.bdEp1In.own = .cpu → ∃ m, StoredAt s s.cfg.addrEp1In.toNat
        ((List.range 5).map fun k => BitVec.ofNat 8 ((v0.toNat + v1.toNat * 2 ^ 20) / 2 ^ (8 * k))) m ∧
      exec (.hidReport v0 v1) s = .next { s with ram := m }) ∧
    (∃ t, exec (.callDisplayValues (BitVec.ofNat 24 v0.toNat) (BitVec.ofNat 24 v1.toNat)) s = .next t ∧
      exec (.hidReportDecode v0 v1) s = .next t)

/-! ### Endpoint 0: the requests -/

/-- R178, R193, R180, R181, R182, R189: a GetDescriptor of a table starts a data stage of `min(wLength, len)` bytes:
the first chunk of at most 32 bytes stands in the Endpoint 0 IN buffer and is armed with toggle 1, the rest and the
zero-length end packet are owed. -/
def Obligations.DescriptorReadStarts : Prop :=
  ∀ (s : State) (i : Instr) (table : DescId) (lo : Byte) (wIndex wLength : Word16),
    ((i = .getDescriptorDevice lo wIndex wLength ∧ table = .device) ∨
     (i = .getDescriptorConfiguration lo wIndex wLength ∧ table = .config) ∨
     (i = .getDescriptorString 0 wIndex wLength ∧ table = .string0) ∨
     (i = .getDescriptorString 1 wIndex wLength ∧ table = .string1) ∨
     (i = .getDescriptorString 2 wIndex wLength ∧ table = .string2) ∨
     (i = .getDescriptorReport lo wIndex wLength ∧ table = .report)) →
    s.bdEp0In.own = .cpu →
    ∃ (total n : Nat) (m : Memory), total = min wLength.toNat (s.cfg.rom table).length ∧ n = min total 32 ∧
      StoredAt s s.cfg.addrEp0In.toNat ((s.cfg.rom table).take n) m ∧
      exec i s = .next (armedEp0In (BitVec.ofNat 10 n) 1 { s with
        ram := m
        ctlDir := .d2h
        ctlSrcTable := table
        ctlSrcOff := BitVec.ofNat 16 n
        ctlRemaining := BitVec.ofNat 16 (total - n)
        ctlToggle := 0
        ctlZlp := decide (s.cfg.ctlZlp = .whenShort ∧ total < wLength.toNat ∧ total % 32 = 0 ∧ 0 < total) })

/-- R192, R184, R182, R185, R187, R188, R190, R194: each rejected request stalls `EP0_IN`, then raises its cause,
and changes nothing else. R183: GetDescriptor of DeviceQualifier stalls `EP0_IN` and arms no data; the fatal signal
comes with it only when `P_DQ_FATAL` is true. -/
def Obligations.RejectedRequests : Prop :=
  (∀ (s : State) (i : Instr) (c : FatalCause) (ty x : Byte) (v wIndex wLength : Word16),
     ((i = .getDescriptorOtherDevice ty x wIndex wLength ∧ c = .unsupportedDescriptor) ∨
      (i = .getDescriptorOtherInterface ty x wIndex wLength ∧ c = .unsupportedDescriptor) ∨
      (i = .getDescriptorString x wIndex wLength ∧ 2 < x.toNat ∧ c = .unsupportedDescriptor) ∨
      (i = .setAddress v wIndex wLength ∧ 128 ≤ v.toNat ∧ c = .badSetAddress) ∨
      (i = .setConfiguration v wIndex wLength ∧ v.extractLsb' 0 8 ≠ 0 ∧ v.extractLsb' 0 8 ≠ s.cfg.configValue ∧
        c = .badConfiguration) ∨
      (i = .setInterface v wIndex wLength ∧ v ≠ 0 ∧ c = .nondefaultAltSetting) ∨
      (i = .hidSetReport v wIndex wLength ∧ v.extractLsb' 8 8 ≠ 2 ∧ c = .unsupportedReportType) ∨
      (i = .hidGetReport v wIndex wLength ∧ c = .unimplementedGetReport) ∨
      (i = .unrecognized ty x v wIndex wLength ∧ c = .unrecognizedRequest)) →
     s.bdEp0In.own = .cpu → exec i s = .next (signalled [c] (stalledEp0In s))) ∧
  ∀ (s : State) (lo : Byte) (wIndex wLength : Word16), s.bdEp0In.own = .cpu →
    (s.cfg.dqFatal = false →
      exec (.getDescriptorDeviceQualifier lo wIndex wLength) s = .next (stalledEp0In s)) ∧
    (s.cfg.dqFatal = true →
      exec (.getDescriptorDeviceQualifier lo wIndex wLength) s = .next (signalled [.deviceQualifier] (stalledEp0In s)))

/-- R179, R185, R188, R191: SetAddress of an address below 128 keeps the address pending and arms the status IN;
SetInterface of setting 0 and SetIdle only arm the status IN; `usb_addr` does not change. R190: SetReport of the output
report type expects one packet of at most 32 bytes with toggle 1. -/
def Obligations.AcceptedRequests : Prop :=
  ∀ (s : State) (v wIndex wLength : Word16), s.bdEp0In.own = .cpu →
    (v.toNat < 128 → exec (.setAddress v wIndex wLength) s =
      .next (armedEp0In 0 1 { s with pendAddr := some (BitVec.ofNat 7 v.toNat), ctlStatus := .statusIn })) ∧
    exec (.setInterface 0 wIndex wLength) s = .next (armedEp0In 0 1 { s with ctlStatus := .statusIn }) ∧
    exec (.hidSetIdle v wIndex wLength) s = .next (armedEp0In 0 1 { s with ctlStatus := .statusIn }) ∧
    (v.extractLsb' 8 8 = 2 → exec (.hidSetReport v wIndex wLength) s =
      .next { s with ctlDir := .h2d, ctlDst := 0, ctlRemaining := 32, ctlToggle := 1 })

/-- R187: SetConfiguration of 0 deconfigures and disables Endpoint 1, of the supported value enables it, each only
when that is a change, and then arms the status IN; any other value is rejected; the high byte of `wValue` is
ignored. -/
def Obligations.ConfigurationRequests : Prop :=
  ∀ (s : State) (v wIndex wLength : Word16), s.bdEp0In.own = .cpu →
    (v.extractLsb' 0 8 = 0 →
      (s.configured = true → ∃ t, exec .callEp1Disable s = .next t ∧
        exec (.setConfiguration v wIndex wLength) s =
          .next (armedEp0In 0 1 { t with configured := false, ctlStatus := .statusIn })) ∧
      (s.configured = false → exec (.setConfiguration v wIndex wLength) s =
        .next (armedEp0In 0 1 { s with ctlStatus := .statusIn }))) ∧
    (v.extractLsb' 0 8 ≠ 0 → v.extractLsb' 0 8 = s.cfg.configValue →
      (s.configured = false → ∃ t, exec .callEp1Enable s = .next t ∧
        exec (.setConfiguration v wIndex wLength) s =
          .next (armedEp0In 0 1 { t with configured := true, ctlStatus := .statusIn })) ∧
      (s.configured = true → exec (.setConfiguration v wIndex wLength) s =
        .next (armedEp0In 0 1 { s with ctlStatus := .statusIn }))) ∧
    (v.extractLsb' 0 8 ≠ 0 → v.extractLsb' 0 8 ≠ s.cfg.configValue →
      exec (.setConfiguration v wIndex wLength) s = .next (signalled [.badConfiguration] (stalledEp0In s)))

/-- R173 to R177 against R90 to R92: dispatching a setup packet by type, recipient, request and selector always
completes, and it is running the instruction its first matching row of the opcode table names. -/
def Obligations.DispatchIsTheTable : Prop :=
  ∀ (p : SetupPacket) (s : State), ∃ t, dispatchSetup p s = .ok t ∧ exec (decodeSetup p) s = .next t

/-! ### Endpoint 0: the completions -/

/-- R172, R171, R34, R93, R198, the event `EV_USB_EP0_SETUP` on its own in the queue: the eight bytes make a setup packet,
the transfer in progress is cancelled, the packet's request runs, and `EP0_OUT` is armed for the next OUT. -/
def Obligations.SetupRuns : Prop :=
  ∀ (s : State) (b0 b1 b2 b3 b4 b5 b6 b7 : Byte), s.trnFifo = [(0, .out)] → s.bdEp0Out.pid = .setup →
    s.bdEp0Out.own = .cpu → BytesAt s.ram s.cfg.addrEp0Out.toNat [b0, b1, b2, b3, b4, b5, b6, b7] →
    ∃ t, exec (decodeSetup ⟨b0, b1, b3 ++ b2, b5 ++ b4, b7 ++ b6⟩) (transferCancelled { s with trnFifo := [] }) = .next t ∧
      exec .evUsbEp0Setup s = .next (armedEp0Out (expectedOutToggle t) t)

/-- R196, R186, the event `EV_USB_EP0_IN` on its own in the queue, outside a data stage with bytes or a zero-length
packet owed: the end of a read waits for the status OUT; the end of a status IN applies the pending address; a
stray completion changes nothing. -/
def Obligations.EndpointZeroInStatus : Prop :=
  ∀ s : State, s.trnFifo = [(0, .inn)] →
    (s.ctlDir = .d2h → s.ctlRemaining = 0 → s.ctlZlp = false →
      exec .evUsbEp0In s = .next { s with trnFifo := [], ctlDir := .none, ctlStatus := .statusOut }) ∧
    (s.ctlDir ≠ .d2h → s.ctlStatus = .statusIn → ∀ a, s.pendAddr = some a →
      exec .evUsbEp0In s = .next { s with
        trnFifo := [], ctlStatus := .none, usbAddr := a, pendAddr := none, trace := s.trace ++ [.addr a] }) ∧
    (s.ctlDir ≠ .d2h → s.ctlStatus = .statusIn → s.pendAddr = none →
      exec .evUsbEp0In s = .next { s with trnFifo := [], ctlStatus := .none }) ∧
    (s.ctlDir ≠ .d2h → s.ctlStatus ≠ .statusIn → exec .evUsbEp0In s = .next { s with trnFifo := [] })

/-- R196, R193, the event `EV_USB_EP0_IN` in a data stage: the next chunk of at most 32 bytes of the table is armed
with the current toggle, or the owed zero-length packet. -/
def Obligations.EndpointZeroInChunk : Prop :=
  ∀ s : State, s.trnFifo = [(0, .inn)] → s.ctlDir = .d2h → s.bdEp0In.own = .cpu → TransferInv s →
    (s.ctlRemaining ≠ 0 → ∃ (n : Nat) (m : Memory), n = min s.ctlRemaining.toNat 32 ∧
      StoredAt s s.cfg.addrEp0In.toNat (((s.cfg.rom s.ctlSrcTable).drop s.ctlSrcOff.toNat).take n) m ∧
      exec .evUsbEp0In s = .next (armedEp0In (BitVec.ofNat 10 n) s.ctlToggle { s with
        trnFifo := []
        ram := m
        ctlSrcOff := s.ctlSrcOff + BitVec.ofNat 16 n
        ctlRemaining := s.ctlRemaining - BitVec.ofNat 16 n
        ctlToggle := s.ctlToggle ^^^ 1 })) ∧
    (s.ctlRemaining = 0 → s.ctlZlp = true →
      exec .evUsbEp0In s = .next (armedEp0In 0 s.ctlToggle { s with
        trnFifo := [], ctlZlp := false, ctlToggle := s.ctlToggle ^^^ 1 }))

/-- R197, R198, the event `EV_USB_EP0_OUT` on its own in the queue, outside a control write: during a read or its
status stage the transfer ends and an armed `EP0_IN` is reclaimed; otherwise the completion is stray; `EP0_OUT` is
armed again. At a stray completion of a descriptor the SIE owns, R260's read of `pid`, R197's of `cnt` and the `Arm`
are recorded as `BD_OWNERSHIP` one after the other (R301) and nothing else changes (log 12). -/
def Obligations.EndpointZeroOutIdle : Prop :=
  ∀ s : State, s.trnFifo = [(0, .out)] → s.bdEp0Out.pid ≠ .setup →
    (s.bdEp0Out.own = .cpu → (s.ctlDir = .d2h ∨ (s.ctlDir = .none ∧ s.ctlStatus = .statusOut)) →
      exec .evUsbEp0Out s = .next (armedEp0Out 0 { s with
        trnFifo := []
        bdEp0In := if s.bdEp0In.own = .sie then reclaimed s.bdEp0In else s.bdEp0In
        trace := s.trace ++ (if s.bdEp0In.own = .sie then [.reclaim .ep0In] else [])
        ctlDir := .none, ctlStatus := .none, ctlZlp := false })) ∧
    (s.bdEp0Out.own = .cpu → s.ctlDir = .none → s.ctlStatus ≠ .statusOut →
      exec .evUsbEp0Out s = .next (armedEp0Out 0 { s with trnFifo := [] })) ∧
    (s.bdEp0Out.own = .sie → s.ctlDir = .none → s.ctlStatus ≠ .statusOut →
      exec .evUsbEp0Out s = .next
        (modelFaulted .bdOwnership (modelFaulted .bdOwnership (modelFaulted .bdOwnership { s with trnFifo := [] }))))

/-- R195, R197, R198, the event `EV_USB_EP0_OUT` in a control write: the packet's bytes go to the sink buffer at the
write offset, a full packet flips the toggle, and a short packet or a count of 0 ends the stage: the sink is handled
and the status IN armed. What the sink does with five bytes or more is the parameter `P_SETREPORT_SINK`. -/
def Obligations.EndpointZeroOutData : Prop :=
  ∀ (s : State) (bytes : List Byte), s.trnFifo = [(0, .out)] → s.bdEp0Out.pid ≠ .setup → s.bdEp0Out.own = .cpu →
    s.bdEp0In.own = .cpu → s.ctlDir = .h2d → s.bdEp0Out.cnt.toNat ≤ 32 → s.ctlDst.toNat + bytes.length ≤ 32 →
    bytes.length = min s.bdEp0Out.cnt.toNat s.ctlRemaining.toNat → BytesAt s.ram s.cfg.addrEp0Out.toNat bytes →
    ∃ (m : Memory) (r : State), StoredAt s (s.cfg.addrBufSetrep.toNat + s.ctlDst.toNat) bytes m ∧
      r = { s with
        trnFifo := []
        ram := m
        ctlDst := s.ctlDst + BitVec.ofNat 16 bytes.length
        ctlRemaining := s.ctlRemaining - BitVec.ofNat 16 bytes.length
        ctlToggle := if s.bdEp0Out.cnt = 32 then s.ctlToggle ^^^ 1 else s.ctlToggle } ∧
      ((s.bdEp0Out.cnt = 32 ∧ r.ctlRemaining ≠ 0) →
        exec .evUsbEp0Out s = .next (armedEp0Out r.ctlToggle r)) ∧
      ((s.bdEp0Out.cnt ≠ 32 ∨ r.ctlRemaining = 0) → (s.cfg.setReportSink = .discard ∨ r.ctlDst.toNat < 5) →
        exec .evUsbEp0Out s =
          .next (armedEp0Out 0 (armedEp0In 0 1 { r with ctlDir := .none, ctlStatus := .statusIn }))) ∧
      (∀ r0 r1 r2 r3 r4 : Byte, (s.bdEp0Out.cnt ≠ 32 ∨ r.ctlRemaining = 0) → s.cfg.setReportSink = .display →
        5 ≤ r.ctlDst.toNat → BytesAt m s.cfg.addrBufSetrep.toNat [r0, r1, r2, r3, r4] →
        ∃ t, exec (.callDisplayValues (0#4 ++ r2.extractLsb' 0 4 ++ r1 ++ r0) (0#4 ++ r4 ++ r3 ++ r2.extractLsb' 4 4))
            { r with ctlDir := .none } = .next t ∧
          exec .evUsbEp0Out s = .next (armedEp0Out 0 (armedEp0In 0 1 { t with ctlStatus := .statusIn })))

/-- What R199 and R201 derive, a whole control read: from the state a GetDescriptor of a table has left, the host reading each
packet and the CORE handling each completion gives the host exactly the first `min(wLength, len)` bytes of the table
in chunks of 32 bytes and one shorter chunk, then one empty packet only when one was owed, with toggles 1, 0, 1, …;
and the block then waits for the status OUT. The schedule is the model's (log 5), and so is what the host sees (log 16). -/
def Obligations.ControlReadDelivers : Prop :=
  ∀ (s t : State) (i : Instr) (table : DescId) (lo : Byte) (wIndex wLength : Word16) (data : List Byte)
    (packets : List HostEvent) (rest : List Input),
    ((i = .getDescriptorDevice lo wIndex wLength ∧ table = .device) ∨
     (i = .getDescriptorConfiguration lo wIndex wLength ∧ table = .config) ∨
     (i = .getDescriptorString 0 wIndex wLength ∧ table = .string0) ∨
     (i = .getDescriptorString 1 wIndex wLength ∧ table = .string1) ∨
     (i = .getDescriptorString 2 wIndex wLength ∧ table = .string2) ∨
     (i = .getDescriptorReport lo wIndex wLength ∧ table = .report)) →
    s.bdEp0In.own = .cpu → s.trnFifo = [] → exec i s = .next t →
    data = (s.cfg.rom table).take wLength.toNat →
    packets = readPackets (data.length + 1) 1 data ++
      (if s.cfg.ctlZlp = .whenShort ∧ data.length < wLength.toNat ∧ data.length % 32 = 0 ∧ 0 < data.length then
        [.data .ep0In (if data.length / 32 % 2 = 0 then 1 else 0) []] else []) →
    ∃ u, Host.Core.run core (2 * packets.length)
        { t with inputs := (List.replicate packets.length [Input.agent (.hostIn .ep0), .packet (.evt 0x419)]).flatten ++ rest } =
          .next u ∧
      u.hostLog = s.hostLog ++ packets ∧ u.inputs = rest ∧ u.trnFifo = [] ∧
      u.ctlDir = .none ∧ u.ctlStatus = .statusOut ∧ u.bdEp0In.own = .cpu ∧
      (∀ x, (x < s.cfg.addrEp0In.toNat ∨ s.cfg.addrEp0In.toNat + 32 ≤ x) → u.ram.read? x = s.ram.read? x)

/-! ### Faults and refusals -/

/-- R250, R253: `Fatal` sets the sticky signal, `ModelFault` does not; both record the cause, report it, and change
nothing else. -/
def Obligations.FaultSignals : Prop :=
  ∀ s : State,
    (∀ c, exec (.callFatal c) s =
      .next { s with fatal := true, faults := s.faults ++ [.fatal c], trace := s.trace ++ [.fatal c] }) ∧
    (∀ c, exec (.callModelFault c) s =
      .next { s with faults := s.faults ++ [.model c], trace := s.trace ++ [.modelFault c] })

/-- R254, R97: the refused rows are refused by name, and the event words that are: those with a reserved `src` or bus
`kind`, a nonzero field that R81 fixes at 0, or a USB (`dir`, `kind`) pair the SIE cannot produce on Endpoint 0 or 1.
The dispatcher never produces one. -/
def Obligations.RefusedEventWords : Prop :=
  ∀ s : State,
    (∀ ep dir kind, exec (.evUsbBadKind ep dir kind) s = .refused .refusedEvent) ∧
    (∀ src ep dir kind, exec (.evRefused src ep dir kind) s = .refused .refusedEvent) ∧
    (∀ (src : BitVec 3) (ep : BitVec 4) (dir : BitVec 1) (kind : BitVec 4),
      exec (decodeEvt (src ++ ep ++ dir ++ kind)) s = .refused .refusedEvent ↔
        (5 ≤ src.toNat ∨ (src = 3 ∧ 2 ≤ kind.toNat) ∨ (src ≠ 2 ∧ (ep ≠ 0 ∨ dir ≠ 0)) ∨
         ((src = 0 ∨ src = 1 ∨ src = 4) ∧ kind ≠ 0) ∨
         (src = 2 ∧ ep = 0 ∧ ¬((dir = 0 ∧ (kind = 0b0001 ∨ kind = 0b1101)) ∨ (dir = 1 ∧ kind = 0b1001))) ∨
         (src = 2 ∧ ep = 1 ∧ ¬((dir = 0 ∧ kind = 0b0001) ∨ (dir = 1 ∧ kind = 0b1001))))) ∧
    ∀ i, nextEvent s = some i → exec i s ≠ .refused .refusedEvent

/-- The dispatcher invokes an entry point only when its condition of R256 holds: an event word whose condition does
not hold changes nothing. The model's reading (log 7). -/
def Obligations.DisabledEventsDoNothing : Prop :=
  ∀ s : State,
    (s.spiIf = false → exec .evSpiByteComplete s = .next s) ∧
    ((s.keyIf = false ∨ s.keyIe = false) → exec .evKeyIrq s = .next s) ∧
    (s.trnFifo.head? ≠ some (0, .out) → exec .evUsbEp0Setup s = .next s ∧ exec .evUsbEp0Out s = .next s) ∧
    (s.bdEp0Out.pid ≠ .setup → exec .evUsbEp0Setup s = .next s) ∧
    (s.bdEp0Out.pid = .setup → exec .evUsbEp0Out s = .next s) ∧
    (s.trnFifo.head? ≠ some (0, .inn) → exec .evUsbEp0In s = .next s) ∧
    (s.trnFifo.head? ≠ some (1, .out) → exec .evUsbEp1Out s = .next s) ∧
    (s.trnFifo.head? ≠ some (1, .inn) → exec .evUsbEp1In s = .next s) ∧
    (s.busResetIf = false → exec .evUsbBusReset s = .next s) ∧
    (s.busOtherIf = false → exec .evUsbBusOther s = .next s) ∧
    (s.timerIf = false → exec .evTimerTick s = .next s) ∧
    (∀ ep dir kind, s.trnFifo.head? ≠ some (ep, if dir = 0 then .out else .inn) →
      exec (.evUsbUnknownEp ep dir kind) s = .next s)

/-! ### Bus events, the timer, the queue -/

/-- R292, R263: a bus reset empties the queue, deconfigures and disables Endpoint 1 where it was configured, sets the
address to 0, cancels the transfer, and arms `EP0_OUT` afresh with toggle 0; a bus event raised with it is cleared
after it. -/
def Obligations.BusResetRuns : Prop :=
  ∀ s : State, s.busResetIf = true → ∃ t,
    (s.configured = true → ∃ d, exec .callEp1Disable { s with busResetIf := false, trnFifo := [] } = .next d ∧
      t = { d with configured := false }) ∧
    (s.configured = false → t = { s with busResetIf := false, trnFifo := [] }) ∧
    exec .evUsbBusReset s = .next (let r := transferCancelled { t with usbAddr := 0, trace := t.trace ++ [.addr 0] }
      { armedEp0Out 0 { r with
          trace := r.trace ++ (if r.bdEp0Out.own = .sie then [.reclaim .ep0Out] else []) } with busOtherIf := false })

/-- R263, R266, R262: another bus event and a timer tick clear their flag, a completion of an unknown endpoint is
consumed, and nothing else changes. With a bus reset raised too, the event word of the other bus event runs the bus
reset first, as the one entry point of R263 does (log 24). -/
def Obligations.IdleEventsRun : Prop :=
  ∀ s : State,
    (s.busOtherIf = true → s.busResetIf = false → exec .evUsbBusOther s = .next { s with busOtherIf := false }) ∧
    (s.busOtherIf = true → s.busResetIf = true →
      ∃ t, exec .evUsbBusReset s = .next t ∧ exec .evUsbBusOther s = .next t ∧ t.busResetIf = false ∧ t.busOtherIf = false) ∧
    (s.timerIf = true → exec .evTimerTick s = .next { s with timerIf := false }) ∧
    (∀ ep dir kind, ep ≠ 0 → ep ≠ 1 → s.trnFifo = [(ep, if dir = 0 then .out else .inn)] →
      exec (.evUsbUnknownEp ep dir kind) s = .next { s with trnFifo := [] })

/-- R259, R261: a USB step handles the queue's completions one after the other, the oldest first, and leaves the
queue empty: with more than one waiting it is the first one's event on its own, and then the event of the rest. -/
def Obligations.QueueDrainsInOrder : Prop :=
  (∀ (s t : State) (i : Instr), usbEvent s = some i → exec i s = .next t → t.trnFifo = []) ∧
  ∀ (s t : State) (e e' : BitVec 4 × Dir) (rest : List (BitVec 4 × Dir)) (i j : Instr),
    s.trnFifo = e :: e' :: rest → usbEvent s = some i → exec i { s with trnFifo := [e] } = .next t →
    usbEvent { t with trnFifo := e' :: rest } = some j →
    exec i s = exec j { t with trnFifo := e' :: rest }

/-! ### The agents at the interface -/

/-- R46: the SHIFTER's completion of the byte in progress; with none in progress the SHIFTER has no step, and its entry
of the schedule is consumed without effect (log 7). R50, R51, R40: the KEY SOURCE, the HOST and the blink timer raise
their flags at any time. -/
def Obligations.DeviceAgentsStep : Prop :=
  ∀ (s : State) (rest : List Input) (rx : Byte),
    (s.inputs = .agent (.shifter rx) :: rest → s.shBusy = true →
      step s = .next { s with inputs := rest, shRx := rx, shRxFull := true, shBusy := false, spiIf := true }) ∧
    (s.inputs = .agent (.shifter rx) :: rest → s.shBusy = false → step s = .next { s with inputs := rest }) ∧
    (s.inputs = .agent .keyEdge :: rest → step s = .next { s with inputs := rest, keyIf := true }) ∧
    (s.inputs = .agent .busReset :: rest → step s = .next { s with inputs := rest, busResetIf := true }) ∧
    (s.inputs = .agent .busOther :: rest → step s = .next { s with inputs := rest, busOtherIf := true }) ∧
    (s.inputs = .agent .timerTick :: rest → step s = .next { s with inputs := rest, timerIf := true })

/-- R47, R49: a SETUP packet of eight bytes at an armed `EP0_OUT`, and an OUT packet of at most the armed count at an
armed OUT descriptor, are stored at its buffer, counted, marked with their token, handed back to the CPU and queued; at
either token a CPU-owned descriptor answers NAK, a stalled one STALL, and nothing else changes but what the HOST saw
(log 16); under `P_SIE_DTS_CHECK` an OUT packet of the other toggle is dropped (log 22). A packet that breaks the laws
of R47 at an armed descriptor is refused (log 15). -/
def Obligations.HostPacketsArrive : Prop :=
  ∀ (s : State) (rest : List Input) (ep : Endpoint) (d : Toggle) (bytes : List Byte), BuffersInv s →
    ((s.bd (outBd ep)).own = .sie → (s.bd (outBd ep)).stall = false →
      (s.inputs = .agent (.hostOut ep d bytes) :: rest → (s.cfg.sieDtsCheck = true → d = (s.bd (outBd ep)).dts) →
        bytes.length ≤ (s.bd (outBd ep)).cnt.toNat →
        ∃ m, StoredAt s (epBuffer s.cfg (outBd ep)).1 bytes m ∧
          step s = .next (State.setBd (outBd ep)
            { s.bd (outBd ep) with cnt := BitVec.ofNat 10 bytes.length, pid := .out, own := .cpu }
            { s with inputs := rest, ram := m, trnFifo := s.trnFifo ++ [(epNumber ep, .out)],
                     hostLog := s.hostLog ++ [.ack (outBd ep)] })) ∧
      (s.inputs = .agent (.hostSetup bytes) :: rest → ep = .ep0 → bytes.length = 8 →
        ∃ m, StoredAt s (epBuffer s.cfg .ep0Out).1 bytes m ∧
          step s = .next { s with
            inputs := rest, ram := m, trnFifo := s.trnFifo ++ [(0, .out)], hostLog := s.hostLog ++ [.ack .ep0Out],
            bdEp0Out := { s.bdEp0Out with cnt := 8, pid := .setup, own := .cpu } }) ∧
      (s.inputs = .agent (.hostOut ep d bytes) :: rest → s.cfg.sieDtsCheck = true → d ≠ (s.bd (outBd ep)).dts →
        step s = .next { s with inputs := rest, hostLog := s.hostLog ++ [.ack (outBd ep)] }) ∧
      (s.inputs = .agent (.hostOut ep d bytes) :: rest → (s.cfg.sieDtsCheck = true → d = (s.bd (outBd ep)).dts) →
        (s.bd (outBd ep)).cnt.toNat < bytes.length → step s = .refused .unlawfulHostPacket) ∧
      (s.inputs = .agent (.hostSetup bytes) :: rest → ep = .ep0 → bytes.length ≠ 8 →
        step s = .refused .unlawfulHostPacket)) ∧
    ((s.bd (outBd ep)).own = .cpu →
      (s.inputs = .agent (.hostOut ep d bytes) :: rest →
        step s = .next { s with inputs := rest, hostLog := s.hostLog ++ [.nak (outBd ep)] }) ∧
      (s.inputs = .agent (.hostSetup bytes) :: rest → ep = .ep0 →
        step s = .next { s with inputs := rest, hostLog := s.hostLog ++ [.nak .ep0Out] })) ∧
    ((s.bd (outBd ep)).own = .sie → (s.bd (outBd ep)).stall = true →
      (s.inputs = .agent (.hostOut ep d bytes) :: rest →
        step s = .next { s with inputs := rest, hostLog := s.hostLog ++ [.stall (outBd ep)] }) ∧
      (s.inputs = .agent (.hostSetup bytes) :: rest → ep = .ep0 →
        step s = .next { s with inputs := rest, hostLog := s.hostLog ++ [.stall .ep0Out] }))

/-- R48, R49: an IN token at an armed IN descriptor reads its bytes with its toggle, hands it back to the CPU and
queues the completion, nothing else changing; a CPU-owned descriptor answers NAK, a stalled one STALL (log 16). The
bytes are written. -/
def Obligations.HostReadsPacket : Prop :=
  ∀ (s : State) (rest : List Input) (ep : Endpoint), s.inputs = .agent (.hostIn ep) :: rest → BuffersInv s →
    ((s.bd (inBd ep)).own = .sie → (s.bd (inBd ep)).stall = false →
      ∀ bytes : List Byte, bytes.length = (s.bd (inBd ep)).cnt.toNat →
        BytesAt s.ram (epBuffer s.cfg (inBd ep)).1 bytes →
        step s = .next (State.setBd (inBd ep) { s.bd (inBd ep) with pid := .inn, own := .cpu }
          { s with inputs := rest, trnFifo := s.trnFifo ++ [(epNumber ep, .inn)],
                   hostLog := s.hostLog ++ [.data (inBd ep) (s.bd (inBd ep)).dts bytes] })) ∧
    ((s.bd (inBd ep)).own = .cpu → step s = .next { s with inputs := rest, hostLog := s.hostLog ++ [.nak (inBd ep)] }) ∧
    ((s.bd (inBd ep)).own = .sie → (s.bd (inBd ep)).stall = true →
      step s = .next { s with inputs := rest, hostLog := s.hostLog ++ [.stall (inBd ep)] })

/-! ### The output lines and the control stage -/

/-- R26, D12: chip-select is at `P_CS_ACTIVE_LEVEL` exactly while it is asserted, and a step that changes its level
reports it. R42, D13: the indicator is at `P_INDICATOR_LEVEL` exactly until the fatal signal, and no step turns it back.
R35: the four values of `stage`. R170: the stage after each Endpoint 0 completion on its own in the queue: after a
Setup, whatever the stage was, it is what the packet's request makes it. -/
def Obligations.OutputLinesAndStage : Prop :=
  (∀ s : State, (csLevel s = s.cfg.csActiveLevel ↔ s.spiCs = true) ∧
    (indicatorLevel s = s.cfg.indicatorLevel ↔ s.fatal = false) ∧
    (stage s = .dataStageWrite ↔ s.ctlDir = .h2d) ∧ (stage s = .dataStageRead ↔ s.ctlDir = .d2h) ∧
    (stage s = .statusStage ↔ s.ctlDir = .none ∧ s.ctlStatus ≠ .none) ∧
    (stage s = .idle ↔ s.ctlDir = .none ∧ s.ctlStatus = .none)) ∧
  (∀ s t : State, step s = .next t →
    (∃ new, t.trace = s.trace ++ new ∧ (csLevel t ≠ csLevel s → .cs t.spiCs ∈ new) ∧
      (indicatorLevel t ≠ indicatorLevel s → ∃ c, .fatal c ∈ new)) ∧
    (indicatorLevel s ≠ s.cfg.indicatorLevel → indicatorLevel t = indicatorLevel s)) ∧
  (∀ (s t : State) (b0 b1 b2 b3 b4 b5 b6 b7 : Byte), s.trnFifo = [(0, .out)] → s.bdEp0Out.pid = .setup →
    BytesAt s.ram s.cfg.addrEp0Out.toNat [b0, b1, b2, b3, b4, b5, b6, b7] → exec .evUsbEp0Setup s = .next t →
    stage t = requestStage s.cfg (decodeSetup ⟨b0, b1, b3 ++ b2, b5 ++ b4, b7 ++ b6⟩) ∧
    (stage t = .statusStage → t.ctlStatus = .statusIn)) ∧
  (∀ s t : State, s.trnFifo = [(0, .inn)] → exec .evUsbEp0In s = .next t →
    (stage s = .dataStageRead →
      if s.ctlRemaining ≠ 0 ∨ s.ctlZlp = true then stage t = .dataStageRead
      else stage t = .statusStage ∧ t.ctlStatus = .statusOut) ∧
    (stage s = .statusStage → s.ctlStatus = .statusIn → stage t = .idle)) ∧
  (∀ s t : State, s.trnFifo = [(0, .out)] → s.bdEp0Out.pid ≠ .setup → exec .evUsbEp0Out s = .next t →
    (stage s = .dataStageRead → stage t = .idle) ∧
    (stage s = .statusStage → s.ctlStatus = .statusOut → stage t = .idle) ∧
    (stage s = .dataStageWrite →
      if s.bdEp0Out.cnt = 32 ∧ 32 < s.ctlRemaining.toNat then stage t = .dataStageWrite
      else s.bdEp0Out.cnt.toNat ≤ 32 → stage t = .statusStage ∧ t.ctlStatus = .statusIn))

/-! ### Invariants every step keeps -/

/-- The engine invariant, which R126 derives for runs from reset: here every step keeps it. -/
def Obligations.StepKeepsEngine : Prop :=
  ∀ s t : State, EngineInv s → step s = .next t → EngineInv t

/-- `EP0_OUT` is armed or a completion of it waits, and it is never stalled: between steps, what R198 derives after
CORE steps. -/
def Obligations.StepKeepsEp0Out : Prop :=
  ∀ s t : State, Ep0OutInv s → step s = .next t → Ep0OutInv t

/-- What R33, R220, R221, R202 and R235 derive: `configured` is `ep1_enabled`; a disabled Endpoint 1 has no SIE-owned
descriptor; of an enabled one `EP1_OUT` is armed or its completion waits; Endpoint 1 is never stalled. Every step keeps
it but the `CALL` packets that run `Ep1Enable` or `Ep1Disable` outside the request that keeps `configured`. -/
def Obligations.StepKeepsEndpointOne : Prop :=
  ∀ s t : State, ¬nextPacketRuns .callEp1Enable s → ¬nextPacketRuns .callEp1Disable s →
    Endpoint1Inv s → step s = .next t → Endpoint1Inv t

/-- What R227 derives (C1): the stored values stay below 2^20. Every step keeps it but a `CALL` packet that runs
`DisplayValues` on a value that does not fit. -/
def Obligations.StepKeepsValues : Prop :=
  ∀ s t : State, (∀ v0 v1, nextPacketRuns (.callDisplayValues v0 v1) s → v0.toNat < 2 ^ 20 ∧ v1.toNat < 2 ^ 20) →
    ValuesInv s → step s = .next t → ValuesInv t

/-- R53, R62: memory keeps its canonical form: addresses strictly rising inside the 16-bit space. -/
def Obligations.StepKeepsMemoryForm : Prop :=
  ∀ s t : State, s.ram.wf = true → step s = .next t → t.ram.wf = true

/-- From R36, R37, R47, R193, R195: every descriptor points at its own buffer and counts no more than it holds, and the
control transfer stays inside its table or sink. -/
def Obligations.StepKeepsContainment : Prop :=
  ∀ s t : State, BuffersInv s → TransferInv s → step s = .next t → BuffersInv t ∧ TransferInv t

/-- From R61, R193, I11 (log 13): inside those bounds no step is stuck: no access leaves the space or passes a table's end. -/
def Obligations.NoStepIsStuck : Prop :=
  ∀ (s : State) (f : Fault), BuffersInv s → TransferInv s → step s ≠ .fault f

/-- From R42 and R38: no step clears the fatal signal, the fault record or the trace. From R29 and R43: no step writes
the decimal-point digit or the descriptor tables. That the parameters are one record in the state that no step writes
is the model's choice (log 1). -/
def Obligations.RecordsGrow : Prop :=
  ∀ s t : State, step s = .next t → recordGrows s t ∧ sameConstants s t

/-! ### Rules of the whole machine -/

/-- R38: every change of chip-select, of the key-interrupt enable, of the address, of Endpoint 1's enable and of the
fatal signal is in the trace. -/
def Obligations.ChangesAreReported : Prop :=
  ∀ s t : State, step s = .next t → outputsReported s t

/-- From R307 and R292: `usb_addr` changes only in a step that handles an Endpoint 0 IN completion, the end of a status IN, or, to
0, in a step that handles a bus reset. -/
def Obligations.AddressChangesAfterHandshake : Prop :=
  ∀ s t : State, step s = .next t → t.usbAddr ≠ s.usbAddr →
    (0, Dir.inn) ∈ s.trnFifo ∨ (s.busResetIf = true ∧ t.usbAddr = 0)
end

