-- ==== Sys2Proof/Laws/Parameters.lean ====
section
/-! SUPPORT. The parameters of R8 as numbers, and the bounds their types give. -/

namespace Sys2Proof

@[simp] theorem pEp0Max_eq : pEp0Max = 32 := rfl
@[simp] theorem pReportLen_eq : pReportLen = 5 := rfl
@[simp] theorem pEp1Interval_eq : pEp1Interval = 100 := rfl
@[simp] theorem pAddrLimit_eq : pAddrLimit = 128 := rfl
@[simp] theorem pOutputReportType_eq : pOutputReportType = 2 := rfl
@[simp] theorem pValueMax_eq : pValueMax = 999999 := rfl
@[simp] theorem pFrame_eq : pFrame = 2 := rfl
@[simp] theorem initLen_eq : initLen = 10 := rfl
@[simp] theorem termLen_eq : termLen = 4 := rfl
@[simp] theorem dispLen_eq : dispLen = 24 := rfl
@[simp] theorem keyLen_eq : keyLen = 2 := rfl

/-- A stored value is below 2^24 (R10). -/
theorem storedValue_lt (v : StoredValue) : v.toNat < 16777216 := v.isLt

/-- A wire value is below 2^20 (R10). -/
theorem wireValue_lt (v : WireValue) : v.toNat < 1048576 := v.isLt

/-- A digit position is below 6. -/
theorem digitId_lt (i : DigitId) : i.val < 6 := i.isLt

/-- A display is 0 or 1. -/
theorem displayId_lt (d : DisplayId) : d.val < 2 := d.isLt

end Sys2Proof
end

