-- ==== Sys2Proof/Laws/Memory.lean ====
section
/-! SUPPORT. Core data memory: a read after a write, and the canonical form every memory operation keeps. -/

namespace Sys2Proof.Machine

open Sys2Proof

/-- A read after a write of one byte. -/
theorem Memory.read?_set (m : Memory) (a x : Nat) (b : Byte) :
    (m.set a b).read? x = if x = a then some b else m.read? x := by
  induction m with
  | nil => simp only [Memory.set, Memory.read?, eq_comm]
  | cons p m ih =>
    obtain ⟨y, v⟩ := p
    simp only [Memory.set]
    split_ifs with h1 h2 h3 h4 <;> simp only [Memory.read?] <;> split_ifs <;> first | rfl | omega | simp_all

/-- R62: a read after a write of several bytes. -/
theorem Memory.read?_setAll (m : Memory) (a x : Nat) (bs : List Byte) :
    (m.setAll a bs).read? x = if a ≤ x ∧ x < a + bs.length then bs[x - a]? else m.read? x := by
  induction bs generalizing m a with
  | nil => simp only [Memory.setAll, List.length_nil]; rw [if_neg (by omega)]
  | cons b bs ih =>
    rw [Memory.setAll, ih, Memory.read?_set, List.length_cons]
    by_cases h : x = a
    · subst h
      simp
    · by_cases h2 : a + 1 ≤ x ∧ x < a + 1 + bs.length
      · rw [if_pos h2, if_pos (by omega)]
        obtain ⟨k, hk⟩ : ∃ k, x - a = k + 1 := ⟨x - a - 1, by omega⟩
        rw [hk, List.getElem?_cons_succ]
        congr 1; omega
      · rw [if_neg h2, if_neg h, if_neg (by omega)]

/-- A write outside a range leaves every byte of the range as it is. -/
theorem Memory.read?_setAll_outside (m : Memory) {a x : Nat} {bs : List Byte} (h : x < a ∨ a + bs.length ≤ x) :
    (m.setAll a bs).read? x = m.read? x := by
  rw [Memory.read?_setAll, if_neg (by omega)]

/-- The byte a write stores at offset `k`. -/
theorem Memory.read?_setAll_inside (m : Memory) (a : Nat) {k : Nat} {bs : List Byte} (h : k < bs.length) :
    (m.setAll a bs).read? (a + k) = bs[k]? := by
  rw [Memory.read?_setAll, if_pos (by omega)]
  congr 1; omega

/-- The canonical form from a lower bound on is kept by a write above the bound. -/
theorem Memory.risingFrom_set {lo : Nat} {m : Memory} {a : Nat} (b : Byte) (hm : m.risingFrom lo = true)
    (hlo : lo ≤ a) (ha : a < 65536) : (m.set a b).risingFrom lo = true := by
  induction m generalizing lo with
  | nil => simp [Memory.set, Memory.risingFrom, hlo, ha]
  | cons p m ih =>
    obtain ⟨y, v⟩ := p
    simp only [Memory.risingFrom, Bool.and_eq_true, decide_eq_true_eq] at hm
    obtain ⟨⟨h1, h2⟩, h3⟩ := hm
    simp only [Memory.set]
    split_ifs with g1 g2
    · simp [Memory.risingFrom, hlo, ha, h2, h3, g1]
    · subst g2; simp [Memory.risingFrom, hlo, ha, h3]
    · simp only [Memory.risingFrom, Bool.and_eq_true, decide_eq_true_eq]
      exact ⟨⟨h1, h2⟩, ih h3 (by omega)⟩

/-- Writing one byte inside the space keeps the canonical form. -/
theorem Memory.wf_set {m : Memory} {a : Nat} (b : Byte) (hm : m.wf = true) (ha : a < 65536) :
    (m.set a b).wf = true :=
  Memory.risingFrom_set b hm (Nat.zero_le a) ha

/-- Writing several bytes inside the space keeps the canonical form. -/
theorem Memory.wf_setAll {m : Memory} {a : Nat} {bs : List Byte} (hm : m.wf = true)
    (ha : a + bs.length ≤ 65536) : (m.setAll a bs).wf = true := by
  induction bs generalizing m a with
  | nil => exact hm
  | cons b bs ih =>
    rw [List.length_cons] at ha
    exact ih (Memory.wf_set b hm (by omega)) (by omega)

/-- The memory of every reset state is in canonical form. -/
theorem resetWith_ram_wf (c : Config) : (State.resetWith c).ram.wf = true := rfl

/-- A canonical memory lists no address below its bound. -/
theorem Memory.read?_below {lo : Nat} {m : Memory} {x : Nat} (hm : m.risingFrom lo = true) (h : x < lo) :
    m.read? x = none := by
  induction m generalizing lo with
  | nil => rfl
  | cons p m ih =>
    obtain ⟨y, v⟩ := p
    simp only [Memory.risingFrom, Bool.and_eq_true, decide_eq_true_eq] at hm
    rw [Memory.read?, if_neg (by omega)]
    exact ih hm.2 (by omega)

/-- Equal reads are equal memories: the form is canonical. -/
theorem Memory.ext_of_wf {lo : Nat} {m k : Memory} (hm : m.risingFrom lo = true) (hk : k.risingFrom lo = true)
    (h : ∀ x, m.read? x = k.read? x) : m = k := by
  induction m generalizing lo k with
  | nil =>
    cases k with
    | nil => rfl
    | cons q k =>
      have := h q.1
      simp [Memory.read?] at this
  | cons p m ih =>
    obtain ⟨y, v⟩ := p
    cases k with
    | nil =>
      have := h y
      simp [Memory.read?] at this
    | cons q k =>
      obtain ⟨z, w⟩ := q
      simp only [Memory.risingFrom, Bool.and_eq_true, decide_eq_true_eq] at hm hk
      have hyz : y = z := by
        rcases Nat.lt_trichotomy y z with g | g | g
        · have := h y
          rw [Memory.read?, if_pos rfl, Memory.read?, if_neg (by omega), Memory.read?_below hk.2 (by omega)] at this
          simp at this
        · exact g
        · have := h z
          rw [Memory.read?, if_neg (by omega), Memory.read?_below hm.2 (by omega), Memory.read?, if_pos rfl] at this
          simp at this
      subst hyz
      have hv : v = w := by
        have := h y
        simpa [Memory.read?] using this
      subst hv
      congr 1
      refine ih hm.2 hk.2 fun x => ?_
      by_cases hx : x = y
      · rw [Memory.read?_below hm.2 (by omega), Memory.read?_below hk.2 (by omega)]
      · have := h x
        rwa [Memory.read?, if_neg (Ne.symm hx), Memory.read?, if_neg (Ne.symm hx)] at this

end Sys2Proof.Machine
end

