-- ==== Sys2Proof/Laws/State.lean ====
section
/-! SUPPORT. What each shared operation leaves as it is: one lemma per operation, each of its equations a simp
lemma. The operations that may be stuck come last, with a hypothesis that they answer. -/

namespace Sys2Proof.Machine

open Sys2Proof

/-- `emit` writes the trace only. -/
@[simp] theorem emit_frame (e : Event) (s : State) :
    (emit e s).cfg = s.cfg ∧ (emit e s).spiActive = s.spiActive ∧ (emit e s).spiPtr = s.spiPtr ∧ (emit e
    s).spiRemaining = s.spiRemaining ∧ (emit e s).spiCallback = s.spiCallback ∧ (emit e s).spiCs = s.spiCs ∧
    (emit e s).shBusy = s.shBusy ∧ (emit e s).shTx = s.shTx ∧ (emit e s).shRx = s.shRx ∧ (emit e s).shRxFull =
    s.shRxFull ∧ (emit e s).value0 = s.value0 ∧ (emit e s).value1 = s.value1 ∧ (emit e s).dpPos = s.dpPos ∧
    (emit e s).keyIe = s.keyIe ∧ (emit e s).keyIf = s.keyIf ∧ (emit e s).usbAddr = s.usbAddr ∧ (emit e
    s).pendAddr = s.pendAddr ∧ (emit e s).configured = s.configured ∧ (emit e s).ctlDir = s.ctlDir ∧ (emit e
    s).ctlSrcTable = s.ctlSrcTable ∧ (emit e s).ctlSrcOff = s.ctlSrcOff ∧ (emit e s).ctlDst = s.ctlDst ∧ (emit e
    s).ctlRemaining = s.ctlRemaining ∧ (emit e s).ctlToggle = s.ctlToggle ∧ (emit e s).ctlZlp = s.ctlZlp ∧ (emit
    e s).ctlStatus = s.ctlStatus ∧ (emit e s).bdEp0Out = s.bdEp0Out ∧ (emit e s).bdEp0In = s.bdEp0In ∧ (emit e
    s).bdEp1Out = s.bdEp1Out ∧ (emit e s).bdEp1In = s.bdEp1In ∧ (emit e s).ep1Enabled = s.ep1Enabled ∧ (emit e
    s).ep1OutDts = s.ep1OutDts ∧ (emit e s).ep1InDts = s.ep1InDts ∧ (emit e s).spiIf = s.spiIf ∧ (emit e
    s).busResetIf = s.busResetIf ∧ (emit e s).busOtherIf = s.busOtherIf ∧ (emit e s).timerIf = s.timerIf ∧ (emit
    e s).trnFifo = s.trnFifo ∧ (emit e s).fatal = s.fatal ∧ (emit e s).faults = s.faults ∧ (emit e s).ram =
    s.ram ∧ (emit e s).draws = s.draws ∧ (emit e s).hostLog = s.hostLog ∧ (emit e s).inputs = s.inputs := by
  repeat' apply And.intro
  all_goals rfl

/-- R250: the fatal signal writes `fatal`, the record and the trace. -/
@[simp] theorem raiseFatal_frame (c : FatalCause) (s : State) :
    (raiseFatal c s).cfg = s.cfg ∧ (raiseFatal c s).spiActive = s.spiActive ∧ (raiseFatal c s).spiPtr = s.spiPtr
    ∧ (raiseFatal c s).spiRemaining = s.spiRemaining ∧ (raiseFatal c s).spiCallback = s.spiCallback ∧
    (raiseFatal c s).spiCs = s.spiCs ∧ (raiseFatal c s).shBusy = s.shBusy ∧ (raiseFatal c s).shTx = s.shTx ∧
    (raiseFatal c s).shRx = s.shRx ∧ (raiseFatal c s).shRxFull = s.shRxFull ∧ (raiseFatal c s).value0 = s.value0
    ∧ (raiseFatal c s).value1 = s.value1 ∧ (raiseFatal c s).dpPos = s.dpPos ∧ (raiseFatal c s).keyIe = s.keyIe ∧
    (raiseFatal c s).keyIf = s.keyIf ∧ (raiseFatal c s).usbAddr = s.usbAddr ∧ (raiseFatal c s).pendAddr =
    s.pendAddr ∧ (raiseFatal c s).configured = s.configured ∧ (raiseFatal c s).ctlDir = s.ctlDir ∧ (raiseFatal c
    s).ctlSrcTable = s.ctlSrcTable ∧ (raiseFatal c s).ctlSrcOff = s.ctlSrcOff ∧ (raiseFatal c s).ctlDst =
    s.ctlDst ∧ (raiseFatal c s).ctlRemaining = s.ctlRemaining ∧ (raiseFatal c s).ctlToggle = s.ctlToggle ∧
    (raiseFatal c s).ctlZlp = s.ctlZlp ∧ (raiseFatal c s).ctlStatus = s.ctlStatus ∧ (raiseFatal c s).bdEp0Out =
    s.bdEp0Out ∧ (raiseFatal c s).bdEp0In = s.bdEp0In ∧ (raiseFatal c s).bdEp1Out = s.bdEp1Out ∧ (raiseFatal c
    s).bdEp1In = s.bdEp1In ∧ (raiseFatal c s).ep1Enabled = s.ep1Enabled ∧ (raiseFatal c s).ep1OutDts =
    s.ep1OutDts ∧ (raiseFatal c s).ep1InDts = s.ep1InDts ∧ (raiseFatal c s).spiIf = s.spiIf ∧ (raiseFatal c
    s).busResetIf = s.busResetIf ∧ (raiseFatal c s).busOtherIf = s.busOtherIf ∧ (raiseFatal c s).timerIf =
    s.timerIf ∧ (raiseFatal c s).trnFifo = s.trnFifo ∧ (raiseFatal c s).ram = s.ram ∧ (raiseFatal c s).draws =
    s.draws ∧ (raiseFatal c s).hostLog = s.hostLog ∧ (raiseFatal c s).inputs = s.inputs := by
  repeat' apply And.intro
  all_goals rfl

/-- R253: a model fault writes the record and the trace. -/
@[simp] theorem raiseModelFault_frame (c : ModelCause) (s : State) :
    (raiseModelFault c s).cfg = s.cfg ∧ (raiseModelFault c s).spiActive = s.spiActive ∧ (raiseModelFault c
    s).spiPtr = s.spiPtr ∧ (raiseModelFault c s).spiRemaining = s.spiRemaining ∧ (raiseModelFault c
    s).spiCallback = s.spiCallback ∧ (raiseModelFault c s).spiCs = s.spiCs ∧ (raiseModelFault c s).shBusy =
    s.shBusy ∧ (raiseModelFault c s).shTx = s.shTx ∧ (raiseModelFault c s).shRx = s.shRx ∧ (raiseModelFault c
    s).shRxFull = s.shRxFull ∧ (raiseModelFault c s).value0 = s.value0 ∧ (raiseModelFault c s).value1 = s.value1
    ∧ (raiseModelFault c s).dpPos = s.dpPos ∧ (raiseModelFault c s).keyIe = s.keyIe ∧ (raiseModelFault c
    s).keyIf = s.keyIf ∧ (raiseModelFault c s).usbAddr = s.usbAddr ∧ (raiseModelFault c s).pendAddr = s.pendAddr
    ∧ (raiseModelFault c s).configured = s.configured ∧ (raiseModelFault c s).ctlDir = s.ctlDir ∧
    (raiseModelFault c s).ctlSrcTable = s.ctlSrcTable ∧ (raiseModelFault c s).ctlSrcOff = s.ctlSrcOff ∧
    (raiseModelFault c s).ctlDst = s.ctlDst ∧ (raiseModelFault c s).ctlRemaining = s.ctlRemaining ∧
    (raiseModelFault c s).ctlToggle = s.ctlToggle ∧ (raiseModelFault c s).ctlZlp = s.ctlZlp ∧ (raiseModelFault c
    s).ctlStatus = s.ctlStatus ∧ (raiseModelFault c s).bdEp0Out = s.bdEp0Out ∧ (raiseModelFault c s).bdEp0In =
    s.bdEp0In ∧ (raiseModelFault c s).bdEp1Out = s.bdEp1Out ∧ (raiseModelFault c s).bdEp1In = s.bdEp1In ∧
    (raiseModelFault c s).ep1Enabled = s.ep1Enabled ∧ (raiseModelFault c s).ep1OutDts = s.ep1OutDts ∧
    (raiseModelFault c s).ep1InDts = s.ep1InDts ∧ (raiseModelFault c s).spiIf = s.spiIf ∧ (raiseModelFault c
    s).busResetIf = s.busResetIf ∧ (raiseModelFault c s).busOtherIf = s.busOtherIf ∧ (raiseModelFault c
    s).timerIf = s.timerIf ∧ (raiseModelFault c s).trnFifo = s.trnFifo ∧ (raiseModelFault c s).fatal = s.fatal ∧
    (raiseModelFault c s).ram = s.ram ∧ (raiseModelFault c s).draws = s.draws ∧ (raiseModelFault c s).hostLog =
    s.hostLog ∧ (raiseModelFault c s).inputs = s.inputs := by
  repeat' apply And.intro
  all_goals rfl

/-- A raised cause writes `fatal`, the record and the trace. -/
@[simp] theorem raise_frame (c : Cause) (s : State) :
    (raise c s).cfg = s.cfg ∧ (raise c s).spiActive = s.spiActive ∧ (raise c s).spiPtr = s.spiPtr ∧ (raise c
    s).spiRemaining = s.spiRemaining ∧ (raise c s).spiCallback = s.spiCallback ∧ (raise c s).spiCs = s.spiCs ∧
    (raise c s).shBusy = s.shBusy ∧ (raise c s).shTx = s.shTx ∧ (raise c s).shRx = s.shRx ∧ (raise c s).shRxFull
    = s.shRxFull ∧ (raise c s).value0 = s.value0 ∧ (raise c s).value1 = s.value1 ∧ (raise c s).dpPos = s.dpPos ∧
    (raise c s).keyIe = s.keyIe ∧ (raise c s).keyIf = s.keyIf ∧ (raise c s).usbAddr = s.usbAddr ∧ (raise c
    s).pendAddr = s.pendAddr ∧ (raise c s).configured = s.configured ∧ (raise c s).ctlDir = s.ctlDir ∧ (raise c
    s).ctlSrcTable = s.ctlSrcTable ∧ (raise c s).ctlSrcOff = s.ctlSrcOff ∧ (raise c s).ctlDst = s.ctlDst ∧
    (raise c s).ctlRemaining = s.ctlRemaining ∧ (raise c s).ctlToggle = s.ctlToggle ∧ (raise c s).ctlZlp =
    s.ctlZlp ∧ (raise c s).ctlStatus = s.ctlStatus ∧ (raise c s).bdEp0Out = s.bdEp0Out ∧ (raise c s).bdEp0In =
    s.bdEp0In ∧ (raise c s).bdEp1Out = s.bdEp1Out ∧ (raise c s).bdEp1In = s.bdEp1In ∧ (raise c s).ep1Enabled =
    s.ep1Enabled ∧ (raise c s).ep1OutDts = s.ep1OutDts ∧ (raise c s).ep1InDts = s.ep1InDts ∧ (raise c s).spiIf =
    s.spiIf ∧ (raise c s).busResetIf = s.busResetIf ∧ (raise c s).busOtherIf = s.busOtherIf ∧ (raise c
    s).timerIf = s.timerIf ∧ (raise c s).trnFifo = s.trnFifo ∧ (raise c s).ram = s.ram ∧ (raise c s).draws =
    s.draws ∧ (raise c s).hostLog = s.hostLog ∧ (raise c s).inputs = s.inputs := by
  cases c <;> simp [raise]

/-- So do all causes of a list. -/
@[simp] theorem raiseAll_frame (cs : List Cause) (s : State) :
    (raiseAll cs s).cfg = s.cfg ∧ (raiseAll cs s).spiActive = s.spiActive ∧ (raiseAll cs s).spiPtr = s.spiPtr ∧
    (raiseAll cs s).spiRemaining = s.spiRemaining ∧ (raiseAll cs s).spiCallback = s.spiCallback ∧ (raiseAll cs
    s).spiCs = s.spiCs ∧ (raiseAll cs s).shBusy = s.shBusy ∧ (raiseAll cs s).shTx = s.shTx ∧ (raiseAll cs
    s).shRx = s.shRx ∧ (raiseAll cs s).shRxFull = s.shRxFull ∧ (raiseAll cs s).value0 = s.value0 ∧ (raiseAll cs
    s).value1 = s.value1 ∧ (raiseAll cs s).dpPos = s.dpPos ∧ (raiseAll cs s).keyIe = s.keyIe ∧ (raiseAll cs
    s).keyIf = s.keyIf ∧ (raiseAll cs s).usbAddr = s.usbAddr ∧ (raiseAll cs s).pendAddr = s.pendAddr ∧ (raiseAll
    cs s).configured = s.configured ∧ (raiseAll cs s).ctlDir = s.ctlDir ∧ (raiseAll cs s).ctlSrcTable =
    s.ctlSrcTable ∧ (raiseAll cs s).ctlSrcOff = s.ctlSrcOff ∧ (raiseAll cs s).ctlDst = s.ctlDst ∧ (raiseAll cs
    s).ctlRemaining = s.ctlRemaining ∧ (raiseAll cs s).ctlToggle = s.ctlToggle ∧ (raiseAll cs s).ctlZlp =
    s.ctlZlp ∧ (raiseAll cs s).ctlStatus = s.ctlStatus ∧ (raiseAll cs s).bdEp0Out = s.bdEp0Out ∧ (raiseAll cs
    s).bdEp0In = s.bdEp0In ∧ (raiseAll cs s).bdEp1Out = s.bdEp1Out ∧ (raiseAll cs s).bdEp1In = s.bdEp1In ∧
    (raiseAll cs s).ep1Enabled = s.ep1Enabled ∧ (raiseAll cs s).ep1OutDts = s.ep1OutDts ∧ (raiseAll cs
    s).ep1InDts = s.ep1InDts ∧ (raiseAll cs s).spiIf = s.spiIf ∧ (raiseAll cs s).busResetIf = s.busResetIf ∧
    (raiseAll cs s).busOtherIf = s.busOtherIf ∧ (raiseAll cs s).timerIf = s.timerIf ∧ (raiseAll cs s).trnFifo =
    s.trnFifo ∧ (raiseAll cs s).ram = s.ram ∧ (raiseAll cs s).draws = s.draws ∧ (raiseAll cs s).hostLog =
    s.hostLog ∧ (raiseAll cs s).inputs = s.inputs := by
  induction cs generalizing s with
  | nil => simp [raiseAll]
  | cons c cs ih => simp only [raiseAll, ih, raise_frame, and_self]

/-- `setCs` writes chip-select and the trace. -/
@[simp] theorem setCs_frame (b : Bool) (s : State) :
    (setCs b s).cfg = s.cfg ∧ (setCs b s).spiActive = s.spiActive ∧ (setCs b s).spiPtr = s.spiPtr ∧ (setCs b
    s).spiRemaining = s.spiRemaining ∧ (setCs b s).spiCallback = s.spiCallback ∧ (setCs b s).shBusy = s.shBusy ∧
    (setCs b s).shTx = s.shTx ∧ (setCs b s).shRx = s.shRx ∧ (setCs b s).shRxFull = s.shRxFull ∧ (setCs b
    s).value0 = s.value0 ∧ (setCs b s).value1 = s.value1 ∧ (setCs b s).dpPos = s.dpPos ∧ (setCs b s).keyIe =
    s.keyIe ∧ (setCs b s).keyIf = s.keyIf ∧ (setCs b s).usbAddr = s.usbAddr ∧ (setCs b s).pendAddr = s.pendAddr
    ∧ (setCs b s).configured = s.configured ∧ (setCs b s).ctlDir = s.ctlDir ∧ (setCs b s).ctlSrcTable =
    s.ctlSrcTable ∧ (setCs b s).ctlSrcOff = s.ctlSrcOff ∧ (setCs b s).ctlDst = s.ctlDst ∧ (setCs b
    s).ctlRemaining = s.ctlRemaining ∧ (setCs b s).ctlToggle = s.ctlToggle ∧ (setCs b s).ctlZlp = s.ctlZlp ∧
    (setCs b s).ctlStatus = s.ctlStatus ∧ (setCs b s).bdEp0Out = s.bdEp0Out ∧ (setCs b s).bdEp0In = s.bdEp0In ∧
    (setCs b s).bdEp1Out = s.bdEp1Out ∧ (setCs b s).bdEp1In = s.bdEp1In ∧ (setCs b s).ep1Enabled = s.ep1Enabled
    ∧ (setCs b s).ep1OutDts = s.ep1OutDts ∧ (setCs b s).ep1InDts = s.ep1InDts ∧ (setCs b s).spiIf = s.spiIf ∧
    (setCs b s).busResetIf = s.busResetIf ∧ (setCs b s).busOtherIf = s.busOtherIf ∧ (setCs b s).timerIf =
    s.timerIf ∧ (setCs b s).trnFifo = s.trnFifo ∧ (setCs b s).fatal = s.fatal ∧ (setCs b s).faults = s.faults ∧
    (setCs b s).ram = s.ram ∧ (setCs b s).draws = s.draws ∧ (setCs b s).hostLog = s.hostLog ∧ (setCs b s).inputs
    = s.inputs := by
  repeat' apply And.intro
  all_goals rfl

/-- `setKeyIe` writes `key_ie` and the trace. -/
@[simp] theorem setKeyIe_frame (b : Bool) (s : State) :
    (setKeyIe b s).cfg = s.cfg ∧ (setKeyIe b s).spiActive = s.spiActive ∧ (setKeyIe b s).spiPtr = s.spiPtr ∧
    (setKeyIe b s).spiRemaining = s.spiRemaining ∧ (setKeyIe b s).spiCallback = s.spiCallback ∧ (setKeyIe b
    s).spiCs = s.spiCs ∧ (setKeyIe b s).shBusy = s.shBusy ∧ (setKeyIe b s).shTx = s.shTx ∧ (setKeyIe b s).shRx =
    s.shRx ∧ (setKeyIe b s).shRxFull = s.shRxFull ∧ (setKeyIe b s).value0 = s.value0 ∧ (setKeyIe b s).value1 =
    s.value1 ∧ (setKeyIe b s).dpPos = s.dpPos ∧ (setKeyIe b s).keyIf = s.keyIf ∧ (setKeyIe b s).usbAddr =
    s.usbAddr ∧ (setKeyIe b s).pendAddr = s.pendAddr ∧ (setKeyIe b s).configured = s.configured ∧ (setKeyIe b
    s).ctlDir = s.ctlDir ∧ (setKeyIe b s).ctlSrcTable = s.ctlSrcTable ∧ (setKeyIe b s).ctlSrcOff = s.ctlSrcOff ∧
    (setKeyIe b s).ctlDst = s.ctlDst ∧ (setKeyIe b s).ctlRemaining = s.ctlRemaining ∧ (setKeyIe b s).ctlToggle =
    s.ctlToggle ∧ (setKeyIe b s).ctlZlp = s.ctlZlp ∧ (setKeyIe b s).ctlStatus = s.ctlStatus ∧ (setKeyIe b
    s).bdEp0Out = s.bdEp0Out ∧ (setKeyIe b s).bdEp0In = s.bdEp0In ∧ (setKeyIe b s).bdEp1Out = s.bdEp1Out ∧
    (setKeyIe b s).bdEp1In = s.bdEp1In ∧ (setKeyIe b s).ep1Enabled = s.ep1Enabled ∧ (setKeyIe b s).ep1OutDts =
    s.ep1OutDts ∧ (setKeyIe b s).ep1InDts = s.ep1InDts ∧ (setKeyIe b s).spiIf = s.spiIf ∧ (setKeyIe b
    s).busResetIf = s.busResetIf ∧ (setKeyIe b s).busOtherIf = s.busOtherIf ∧ (setKeyIe b s).timerIf = s.timerIf
    ∧ (setKeyIe b s).trnFifo = s.trnFifo ∧ (setKeyIe b s).fatal = s.fatal ∧ (setKeyIe b s).faults = s.faults ∧
    (setKeyIe b s).ram = s.ram ∧ (setKeyIe b s).draws = s.draws ∧ (setKeyIe b s).hostLog = s.hostLog ∧ (setKeyIe
    b s).inputs = s.inputs := by
  repeat' apply And.intro
  all_goals rfl

/-- R27: `ShifterWrite`. -/
@[simp] theorem shifterWrite_frame (b : Byte) (s : State) :
    (shifterWrite b s).cfg = s.cfg ∧ (shifterWrite b s).spiActive = s.spiActive ∧ (shifterWrite b s).spiPtr =
    s.spiPtr ∧ (shifterWrite b s).spiRemaining = s.spiRemaining ∧ (shifterWrite b s).spiCallback = s.spiCallback
    ∧ (shifterWrite b s).spiCs = s.spiCs ∧ (shifterWrite b s).shRx = s.shRx ∧ (shifterWrite b s).shRxFull =
    s.shRxFull ∧ (shifterWrite b s).value0 = s.value0 ∧ (shifterWrite b s).value1 = s.value1 ∧ (shifterWrite b
    s).dpPos = s.dpPos ∧ (shifterWrite b s).keyIe = s.keyIe ∧ (shifterWrite b s).keyIf = s.keyIf ∧ (shifterWrite
    b s).usbAddr = s.usbAddr ∧ (shifterWrite b s).pendAddr = s.pendAddr ∧ (shifterWrite b s).configured =
    s.configured ∧ (shifterWrite b s).ctlDir = s.ctlDir ∧ (shifterWrite b s).ctlSrcTable = s.ctlSrcTable ∧
    (shifterWrite b s).ctlSrcOff = s.ctlSrcOff ∧ (shifterWrite b s).ctlDst = s.ctlDst ∧ (shifterWrite b
    s).ctlRemaining = s.ctlRemaining ∧ (shifterWrite b s).ctlToggle = s.ctlToggle ∧ (shifterWrite b s).ctlZlp =
    s.ctlZlp ∧ (shifterWrite b s).ctlStatus = s.ctlStatus ∧ (shifterWrite b s).bdEp0Out = s.bdEp0Out ∧
    (shifterWrite b s).bdEp0In = s.bdEp0In ∧ (shifterWrite b s).bdEp1Out = s.bdEp1Out ∧ (shifterWrite b
    s).bdEp1In = s.bdEp1In ∧ (shifterWrite b s).ep1Enabled = s.ep1Enabled ∧ (shifterWrite b s).ep1OutDts =
    s.ep1OutDts ∧ (shifterWrite b s).ep1InDts = s.ep1InDts ∧ (shifterWrite b s).spiIf = s.spiIf ∧ (shifterWrite
    b s).busResetIf = s.busResetIf ∧ (shifterWrite b s).busOtherIf = s.busOtherIf ∧ (shifterWrite b s).timerIf =
    s.timerIf ∧ (shifterWrite b s).trnFifo = s.trnFifo ∧ (shifterWrite b s).fatal = s.fatal ∧ (shifterWrite b
    s).faults = s.faults ∧ (shifterWrite b s).ram = s.ram ∧ (shifterWrite b s).draws = s.draws ∧ (shifterWrite b
    s).hostLog = s.hostLog ∧ (shifterWrite b s).inputs = s.inputs := by
  repeat' apply And.intro
  all_goals rfl

/-- R27: `ShifterRead`. -/
@[simp] theorem afterShifterRead_frame (s : State) :
    (afterShifterRead s).cfg = s.cfg ∧ (afterShifterRead s).spiActive = s.spiActive ∧ (afterShifterRead
    s).spiPtr = s.spiPtr ∧ (afterShifterRead s).spiRemaining = s.spiRemaining ∧ (afterShifterRead s).spiCallback
    = s.spiCallback ∧ (afterShifterRead s).spiCs = s.spiCs ∧ (afterShifterRead s).shBusy = s.shBusy ∧
    (afterShifterRead s).shTx = s.shTx ∧ (afterShifterRead s).shRx = s.shRx ∧ (afterShifterRead s).value0 =
    s.value0 ∧ (afterShifterRead s).value1 = s.value1 ∧ (afterShifterRead s).dpPos = s.dpPos ∧ (afterShifterRead
    s).keyIe = s.keyIe ∧ (afterShifterRead s).keyIf = s.keyIf ∧ (afterShifterRead s).usbAddr = s.usbAddr ∧
    (afterShifterRead s).pendAddr = s.pendAddr ∧ (afterShifterRead s).configured = s.configured ∧
    (afterShifterRead s).ctlDir = s.ctlDir ∧ (afterShifterRead s).ctlSrcTable = s.ctlSrcTable ∧
    (afterShifterRead s).ctlSrcOff = s.ctlSrcOff ∧ (afterShifterRead s).ctlDst = s.ctlDst ∧ (afterShifterRead
    s).ctlRemaining = s.ctlRemaining ∧ (afterShifterRead s).ctlToggle = s.ctlToggle ∧ (afterShifterRead
    s).ctlZlp = s.ctlZlp ∧ (afterShifterRead s).ctlStatus = s.ctlStatus ∧ (afterShifterRead s).bdEp0Out =
    s.bdEp0Out ∧ (afterShifterRead s).bdEp0In = s.bdEp0In ∧ (afterShifterRead s).bdEp1Out = s.bdEp1Out ∧
    (afterShifterRead s).bdEp1In = s.bdEp1In ∧ (afterShifterRead s).ep1Enabled = s.ep1Enabled ∧
    (afterShifterRead s).ep1OutDts = s.ep1OutDts ∧ (afterShifterRead s).ep1InDts = s.ep1InDts ∧
    (afterShifterRead s).spiIf = s.spiIf ∧ (afterShifterRead s).busResetIf = s.busResetIf ∧ (afterShifterRead
    s).busOtherIf = s.busOtherIf ∧ (afterShifterRead s).timerIf = s.timerIf ∧ (afterShifterRead s).trnFifo =
    s.trnFifo ∧ (afterShifterRead s).fatal = s.fatal ∧ (afterShifterRead s).faults = s.faults ∧
    (afterShifterRead s).ram = s.ram ∧ (afterShifterRead s).draws = s.draws ∧ (afterShifterRead s).hostLog =
    s.hostLog ∧ (afterShifterRead s).inputs = s.inputs := by
  repeat' apply And.intro
  all_goals rfl

/-- `popTrn` writes the queue only. -/
@[simp] theorem popTrn_frame (s : State) :
    (popTrn s).cfg = s.cfg ∧ (popTrn s).spiActive = s.spiActive ∧ (popTrn s).spiPtr = s.spiPtr ∧ (popTrn
    s).spiRemaining = s.spiRemaining ∧ (popTrn s).spiCallback = s.spiCallback ∧ (popTrn s).spiCs = s.spiCs ∧
    (popTrn s).shBusy = s.shBusy ∧ (popTrn s).shTx = s.shTx ∧ (popTrn s).shRx = s.shRx ∧ (popTrn s).shRxFull =
    s.shRxFull ∧ (popTrn s).value0 = s.value0 ∧ (popTrn s).value1 = s.value1 ∧ (popTrn s).dpPos = s.dpPos ∧
    (popTrn s).keyIe = s.keyIe ∧ (popTrn s).keyIf = s.keyIf ∧ (popTrn s).usbAddr = s.usbAddr ∧ (popTrn
    s).pendAddr = s.pendAddr ∧ (popTrn s).configured = s.configured ∧ (popTrn s).ctlDir = s.ctlDir ∧ (popTrn
    s).ctlSrcTable = s.ctlSrcTable ∧ (popTrn s).ctlSrcOff = s.ctlSrcOff ∧ (popTrn s).ctlDst = s.ctlDst ∧ (popTrn
    s).ctlRemaining = s.ctlRemaining ∧ (popTrn s).ctlToggle = s.ctlToggle ∧ (popTrn s).ctlZlp = s.ctlZlp ∧
    (popTrn s).ctlStatus = s.ctlStatus ∧ (popTrn s).bdEp0Out = s.bdEp0Out ∧ (popTrn s).bdEp0In = s.bdEp0In ∧
    (popTrn s).bdEp1Out = s.bdEp1Out ∧ (popTrn s).bdEp1In = s.bdEp1In ∧ (popTrn s).ep1Enabled = s.ep1Enabled ∧
    (popTrn s).ep1OutDts = s.ep1OutDts ∧ (popTrn s).ep1InDts = s.ep1InDts ∧ (popTrn s).spiIf = s.spiIf ∧ (popTrn
    s).busResetIf = s.busResetIf ∧ (popTrn s).busOtherIf = s.busOtherIf ∧ (popTrn s).timerIf = s.timerIf ∧
    (popTrn s).fatal = s.fatal ∧ (popTrn s).faults = s.faults ∧ (popTrn s).trace = s.trace ∧ (popTrn s).ram =
    s.ram ∧ (popTrn s).draws = s.draws ∧ (popTrn s).hostLog = s.hostLog ∧ (popTrn s).inputs = s.inputs := by
  repeat' apply And.intro
  all_goals rfl

/-- `hostSees` writes the observation only. -/
@[simp] theorem hostSees_frame (h : HostEvent) (s : State) :
    (hostSees h s).cfg = s.cfg ∧ (hostSees h s).spiActive = s.spiActive ∧ (hostSees h s).spiPtr = s.spiPtr ∧
    (hostSees h s).spiRemaining = s.spiRemaining ∧ (hostSees h s).spiCallback = s.spiCallback ∧ (hostSees h
    s).spiCs = s.spiCs ∧ (hostSees h s).shBusy = s.shBusy ∧ (hostSees h s).shTx = s.shTx ∧ (hostSees h s).shRx =
    s.shRx ∧ (hostSees h s).shRxFull = s.shRxFull ∧ (hostSees h s).value0 = s.value0 ∧ (hostSees h s).value1 =
    s.value1 ∧ (hostSees h s).dpPos = s.dpPos ∧ (hostSees h s).keyIe = s.keyIe ∧ (hostSees h s).keyIf = s.keyIf
    ∧ (hostSees h s).usbAddr = s.usbAddr ∧ (hostSees h s).pendAddr = s.pendAddr ∧ (hostSees h s).configured =
    s.configured ∧ (hostSees h s).ctlDir = s.ctlDir ∧ (hostSees h s).ctlSrcTable = s.ctlSrcTable ∧ (hostSees h
    s).ctlSrcOff = s.ctlSrcOff ∧ (hostSees h s).ctlDst = s.ctlDst ∧ (hostSees h s).ctlRemaining = s.ctlRemaining
    ∧ (hostSees h s).ctlToggle = s.ctlToggle ∧ (hostSees h s).ctlZlp = s.ctlZlp ∧ (hostSees h s).ctlStatus =
    s.ctlStatus ∧ (hostSees h s).bdEp0Out = s.bdEp0Out ∧ (hostSees h s).bdEp0In = s.bdEp0In ∧ (hostSees h
    s).bdEp1Out = s.bdEp1Out ∧ (hostSees h s).bdEp1In = s.bdEp1In ∧ (hostSees h s).ep1Enabled = s.ep1Enabled ∧
    (hostSees h s).ep1OutDts = s.ep1OutDts ∧ (hostSees h s).ep1InDts = s.ep1InDts ∧ (hostSees h s).spiIf =
    s.spiIf ∧ (hostSees h s).busResetIf = s.busResetIf ∧ (hostSees h s).busOtherIf = s.busOtherIf ∧ (hostSees h
    s).timerIf = s.timerIf ∧ (hostSees h s).trnFifo = s.trnFifo ∧ (hostSees h s).fatal = s.fatal ∧ (hostSees h
    s).faults = s.faults ∧ (hostSees h s).trace = s.trace ∧ (hostSees h s).ram = s.ram ∧ (hostSees h s).draws =
    s.draws ∧ (hostSees h s).inputs = s.inputs := by
  repeat' apply And.intro
  all_goals rfl

/-- A read writes the record, the trace and the draw counter. -/
@[simp] theorem afterRead_frame (a n : Nat) (s : State) :
    (afterRead a n s).cfg = s.cfg ∧ (afterRead a n s).spiActive = s.spiActive ∧ (afterRead a n s).spiPtr =
    s.spiPtr ∧ (afterRead a n s).spiRemaining = s.spiRemaining ∧ (afterRead a n s).spiCallback = s.spiCallback ∧
    (afterRead a n s).spiCs = s.spiCs ∧ (afterRead a n s).shBusy = s.shBusy ∧ (afterRead a n s).shTx = s.shTx ∧
    (afterRead a n s).shRx = s.shRx ∧ (afterRead a n s).shRxFull = s.shRxFull ∧ (afterRead a n s).value0 =
    s.value0 ∧ (afterRead a n s).value1 = s.value1 ∧ (afterRead a n s).dpPos = s.dpPos ∧ (afterRead a n s).keyIe
    = s.keyIe ∧ (afterRead a n s).keyIf = s.keyIf ∧ (afterRead a n s).usbAddr = s.usbAddr ∧ (afterRead a n
    s).pendAddr = s.pendAddr ∧ (afterRead a n s).configured = s.configured ∧ (afterRead a n s).ctlDir = s.ctlDir
    ∧ (afterRead a n s).ctlSrcTable = s.ctlSrcTable ∧ (afterRead a n s).ctlSrcOff = s.ctlSrcOff ∧ (afterRead a n
    s).ctlDst = s.ctlDst ∧ (afterRead a n s).ctlRemaining = s.ctlRemaining ∧ (afterRead a n s).ctlToggle =
    s.ctlToggle ∧ (afterRead a n s).ctlZlp = s.ctlZlp ∧ (afterRead a n s).ctlStatus = s.ctlStatus ∧ (afterRead a
    n s).bdEp0Out = s.bdEp0Out ∧ (afterRead a n s).bdEp0In = s.bdEp0In ∧ (afterRead a n s).bdEp1Out = s.bdEp1Out
    ∧ (afterRead a n s).bdEp1In = s.bdEp1In ∧ (afterRead a n s).ep1Enabled = s.ep1Enabled ∧ (afterRead a n
    s).ep1OutDts = s.ep1OutDts ∧ (afterRead a n s).ep1InDts = s.ep1InDts ∧ (afterRead a n s).spiIf = s.spiIf ∧
    (afterRead a n s).busResetIf = s.busResetIf ∧ (afterRead a n s).busOtherIf = s.busOtherIf ∧ (afterRead a n
    s).timerIf = s.timerIf ∧ (afterRead a n s).trnFifo = s.trnFifo ∧ (afterRead a n s).fatal = s.fatal ∧
    (afterRead a n s).ram = s.ram ∧ (afterRead a n s).hostLog = s.hostLog ∧ (afterRead a n s).inputs = s.inputs := by
  unfold afterRead; (repeat' split) <;> simp

/-- A CORE read writes the record, the trace and the draw counter. -/
@[simp] theorem afterCoreRead_frame (a n : Nat) (s : State) :
    (afterCoreRead a n s).cfg = s.cfg ∧ (afterCoreRead a n s).spiActive = s.spiActive ∧ (afterCoreRead a n
    s).spiPtr = s.spiPtr ∧ (afterCoreRead a n s).spiRemaining = s.spiRemaining ∧ (afterCoreRead a n
    s).spiCallback = s.spiCallback ∧ (afterCoreRead a n s).spiCs = s.spiCs ∧ (afterCoreRead a n s).shBusy =
    s.shBusy ∧ (afterCoreRead a n s).shTx = s.shTx ∧ (afterCoreRead a n s).shRx = s.shRx ∧ (afterCoreRead a n
    s).shRxFull = s.shRxFull ∧ (afterCoreRead a n s).value0 = s.value0 ∧ (afterCoreRead a n s).value1 = s.value1
    ∧ (afterCoreRead a n s).dpPos = s.dpPos ∧ (afterCoreRead a n s).keyIe = s.keyIe ∧ (afterCoreRead a n
    s).keyIf = s.keyIf ∧ (afterCoreRead a n s).usbAddr = s.usbAddr ∧ (afterCoreRead a n s).pendAddr = s.pendAddr
    ∧ (afterCoreRead a n s).configured = s.configured ∧ (afterCoreRead a n s).ctlDir = s.ctlDir ∧ (afterCoreRead
    a n s).ctlSrcTable = s.ctlSrcTable ∧ (afterCoreRead a n s).ctlSrcOff = s.ctlSrcOff ∧ (afterCoreRead a n
    s).ctlDst = s.ctlDst ∧ (afterCoreRead a n s).ctlRemaining = s.ctlRemaining ∧ (afterCoreRead a n s).ctlToggle
    = s.ctlToggle ∧ (afterCoreRead a n s).ctlZlp = s.ctlZlp ∧ (afterCoreRead a n s).ctlStatus = s.ctlStatus ∧
    (afterCoreRead a n s).bdEp0Out = s.bdEp0Out ∧ (afterCoreRead a n s).bdEp0In = s.bdEp0In ∧ (afterCoreRead a n
    s).bdEp1Out = s.bdEp1Out ∧ (afterCoreRead a n s).bdEp1In = s.bdEp1In ∧ (afterCoreRead a n s).ep1Enabled =
    s.ep1Enabled ∧ (afterCoreRead a n s).ep1OutDts = s.ep1OutDts ∧ (afterCoreRead a n s).ep1InDts = s.ep1InDts ∧
    (afterCoreRead a n s).spiIf = s.spiIf ∧ (afterCoreRead a n s).busResetIf = s.busResetIf ∧ (afterCoreRead a n
    s).busOtherIf = s.busOtherIf ∧ (afterCoreRead a n s).timerIf = s.timerIf ∧ (afterCoreRead a n s).trnFifo =
    s.trnFifo ∧ (afterCoreRead a n s).fatal = s.fatal ∧ (afterCoreRead a n s).ram = s.ram ∧ (afterCoreRead a n
    s).hostLog = s.hostLog ∧ (afterCoreRead a n s).inputs = s.inputs := by
  unfold afterCoreRead; split <;> simp

/-- A CORE read of a descriptor's field writes the record and the trace. -/
@[simp] theorem readField_frame (e : BdId) (s : State) :
    (readField e s).cfg = s.cfg ∧ (readField e s).spiActive = s.spiActive ∧ (readField e s).spiPtr = s.spiPtr ∧
    (readField e s).spiRemaining = s.spiRemaining ∧ (readField e s).spiCallback = s.spiCallback ∧ (readField e
    s).spiCs = s.spiCs ∧ (readField e s).shBusy = s.shBusy ∧ (readField e s).shTx = s.shTx ∧ (readField e
    s).shRx = s.shRx ∧ (readField e s).shRxFull = s.shRxFull ∧ (readField e s).value0 = s.value0 ∧ (readField e
    s).value1 = s.value1 ∧ (readField e s).dpPos = s.dpPos ∧ (readField e s).keyIe = s.keyIe ∧ (readField e
    s).keyIf = s.keyIf ∧ (readField e s).usbAddr = s.usbAddr ∧ (readField e s).pendAddr = s.pendAddr ∧
    (readField e s).configured = s.configured ∧ (readField e s).ctlDir = s.ctlDir ∧ (readField e s).ctlSrcTable
    = s.ctlSrcTable ∧ (readField e s).ctlSrcOff = s.ctlSrcOff ∧ (readField e s).ctlDst = s.ctlDst ∧ (readField e
    s).ctlRemaining = s.ctlRemaining ∧ (readField e s).ctlToggle = s.ctlToggle ∧ (readField e s).ctlZlp =
    s.ctlZlp ∧ (readField e s).ctlStatus = s.ctlStatus ∧ (readField e s).bdEp0Out = s.bdEp0Out ∧ (readField e
    s).bdEp0In = s.bdEp0In ∧ (readField e s).bdEp1Out = s.bdEp1Out ∧ (readField e s).bdEp1In = s.bdEp1In ∧
    (readField e s).ep1Enabled = s.ep1Enabled ∧ (readField e s).ep1OutDts = s.ep1OutDts ∧ (readField e
    s).ep1InDts = s.ep1InDts ∧ (readField e s).spiIf = s.spiIf ∧ (readField e s).busResetIf = s.busResetIf ∧
    (readField e s).busOtherIf = s.busOtherIf ∧ (readField e s).timerIf = s.timerIf ∧ (readField e s).trnFifo =
    s.trnFifo ∧ (readField e s).fatal = s.fatal ∧ (readField e s).ram = s.ram ∧ (readField e s).draws = s.draws
    ∧ (readField e s).hostLog = s.hostLog ∧ (readField e s).inputs = s.inputs := by
  unfold readField; (repeat' split) <;> simp

/-- A CORE write writes memory, or the record and the trace. -/
@[simp] theorem coreWrite_frame (a : Nat) (bs : List Byte) (s : State) :
    (coreWrite a bs s).cfg = s.cfg ∧ (coreWrite a bs s).spiActive = s.spiActive ∧ (coreWrite a bs s).spiPtr =
    s.spiPtr ∧ (coreWrite a bs s).spiRemaining = s.spiRemaining ∧ (coreWrite a bs s).spiCallback = s.spiCallback
    ∧ (coreWrite a bs s).spiCs = s.spiCs ∧ (coreWrite a bs s).shBusy = s.shBusy ∧ (coreWrite a bs s).shTx =
    s.shTx ∧ (coreWrite a bs s).shRx = s.shRx ∧ (coreWrite a bs s).shRxFull = s.shRxFull ∧ (coreWrite a bs
    s).value0 = s.value0 ∧ (coreWrite a bs s).value1 = s.value1 ∧ (coreWrite a bs s).dpPos = s.dpPos ∧
    (coreWrite a bs s).keyIe = s.keyIe ∧ (coreWrite a bs s).keyIf = s.keyIf ∧ (coreWrite a bs s).usbAddr =
    s.usbAddr ∧ (coreWrite a bs s).pendAddr = s.pendAddr ∧ (coreWrite a bs s).configured = s.configured ∧
    (coreWrite a bs s).ctlDir = s.ctlDir ∧ (coreWrite a bs s).ctlSrcTable = s.ctlSrcTable ∧ (coreWrite a bs
    s).ctlSrcOff = s.ctlSrcOff ∧ (coreWrite a bs s).ctlDst = s.ctlDst ∧ (coreWrite a bs s).ctlRemaining =
    s.ctlRemaining ∧ (coreWrite a bs s).ctlToggle = s.ctlToggle ∧ (coreWrite a bs s).ctlZlp = s.ctlZlp ∧
    (coreWrite a bs s).ctlStatus = s.ctlStatus ∧ (coreWrite a bs s).bdEp0Out = s.bdEp0Out ∧ (coreWrite a bs
    s).bdEp0In = s.bdEp0In ∧ (coreWrite a bs s).bdEp1Out = s.bdEp1Out ∧ (coreWrite a bs s).bdEp1In = s.bdEp1In ∧
    (coreWrite a bs s).ep1Enabled = s.ep1Enabled ∧ (coreWrite a bs s).ep1OutDts = s.ep1OutDts ∧ (coreWrite a bs
    s).ep1InDts = s.ep1InDts ∧ (coreWrite a bs s).spiIf = s.spiIf ∧ (coreWrite a bs s).busResetIf = s.busResetIf
    ∧ (coreWrite a bs s).busOtherIf = s.busOtherIf ∧ (coreWrite a bs s).timerIf = s.timerIf ∧ (coreWrite a bs
    s).trnFifo = s.trnFifo ∧ (coreWrite a bs s).fatal = s.fatal ∧ (coreWrite a bs s).draws = s.draws ∧
    (coreWrite a bs s).hostLog = s.hostLog ∧ (coreWrite a bs s).inputs = s.inputs := by
  unfold coreWrite; (repeat' split) <;> simp

/-- `setBd` writes the descriptors only. -/
@[simp] theorem setBd_frame (e : BdId) (b : BufferDescriptor) (s : State) :
    (State.setBd e b s).cfg = s.cfg ∧ (State.setBd e b s).spiActive = s.spiActive ∧ (State.setBd e b s).spiPtr =
    s.spiPtr ∧ (State.setBd e b s).spiRemaining = s.spiRemaining ∧ (State.setBd e b s).spiCallback =
    s.spiCallback ∧ (State.setBd e b s).spiCs = s.spiCs ∧ (State.setBd e b s).shBusy = s.shBusy ∧ (State.setBd e
    b s).shTx = s.shTx ∧ (State.setBd e b s).shRx = s.shRx ∧ (State.setBd e b s).shRxFull = s.shRxFull ∧
    (State.setBd e b s).value0 = s.value0 ∧ (State.setBd e b s).value1 = s.value1 ∧ (State.setBd e b s).dpPos =
    s.dpPos ∧ (State.setBd e b s).keyIe = s.keyIe ∧ (State.setBd e b s).keyIf = s.keyIf ∧ (State.setBd e b
    s).usbAddr = s.usbAddr ∧ (State.setBd e b s).pendAddr = s.pendAddr ∧ (State.setBd e b s).configured =
    s.configured ∧ (State.setBd e b s).ctlDir = s.ctlDir ∧ (State.setBd e b s).ctlSrcTable = s.ctlSrcTable ∧
    (State.setBd e b s).ctlSrcOff = s.ctlSrcOff ∧ (State.setBd e b s).ctlDst = s.ctlDst ∧ (State.setBd e b
    s).ctlRemaining = s.ctlRemaining ∧ (State.setBd e b s).ctlToggle = s.ctlToggle ∧ (State.setBd e b s).ctlZlp
    = s.ctlZlp ∧ (State.setBd e b s).ctlStatus = s.ctlStatus ∧ (State.setBd e b s).ep1Enabled = s.ep1Enabled ∧
    (State.setBd e b s).ep1OutDts = s.ep1OutDts ∧ (State.setBd e b s).ep1InDts = s.ep1InDts ∧ (State.setBd e b
    s).spiIf = s.spiIf ∧ (State.setBd e b s).busResetIf = s.busResetIf ∧ (State.setBd e b s).busOtherIf =
    s.busOtherIf ∧ (State.setBd e b s).timerIf = s.timerIf ∧ (State.setBd e b s).trnFifo = s.trnFifo ∧
    (State.setBd e b s).fatal = s.fatal ∧ (State.setBd e b s).faults = s.faults ∧ (State.setBd e b s).trace =
    s.trace ∧ (State.setBd e b s).ram = s.ram ∧ (State.setBd e b s).draws = s.draws ∧ (State.setBd e b
    s).hostLog = s.hostLog ∧ (State.setBd e b s).inputs = s.inputs := by
  cases e <;> simp [State.setBd]

/-- R36: `Arm` writes descriptors, the record and the trace. -/
@[simp] theorem arm_frame (e : BdId) (adr : Word16) (cnt : BitVec 10) (dts : Toggle) (s : State) :
    (arm e adr cnt dts s).cfg = s.cfg ∧ (arm e adr cnt dts s).spiActive = s.spiActive ∧ (arm e adr cnt dts
    s).spiPtr = s.spiPtr ∧ (arm e adr cnt dts s).spiRemaining = s.spiRemaining ∧ (arm e adr cnt dts
    s).spiCallback = s.spiCallback ∧ (arm e adr cnt dts s).spiCs = s.spiCs ∧ (arm e adr cnt dts s).shBusy =
    s.shBusy ∧ (arm e adr cnt dts s).shTx = s.shTx ∧ (arm e adr cnt dts s).shRx = s.shRx ∧ (arm e adr cnt dts
    s).shRxFull = s.shRxFull ∧ (arm e adr cnt dts s).value0 = s.value0 ∧ (arm e adr cnt dts s).value1 = s.value1
    ∧ (arm e adr cnt dts s).dpPos = s.dpPos ∧ (arm e adr cnt dts s).keyIe = s.keyIe ∧ (arm e adr cnt dts
    s).keyIf = s.keyIf ∧ (arm e adr cnt dts s).usbAddr = s.usbAddr ∧ (arm e adr cnt dts s).pendAddr = s.pendAddr
    ∧ (arm e adr cnt dts s).configured = s.configured ∧ (arm e adr cnt dts s).ctlDir = s.ctlDir ∧ (arm e adr cnt
    dts s).ctlSrcTable = s.ctlSrcTable ∧ (arm e adr cnt dts s).ctlSrcOff = s.ctlSrcOff ∧ (arm e adr cnt dts
    s).ctlDst = s.ctlDst ∧ (arm e adr cnt dts s).ctlRemaining = s.ctlRemaining ∧ (arm e adr cnt dts s).ctlToggle
    = s.ctlToggle ∧ (arm e adr cnt dts s).ctlZlp = s.ctlZlp ∧ (arm e adr cnt dts s).ctlStatus = s.ctlStatus ∧
    (arm e adr cnt dts s).ep1Enabled = s.ep1Enabled ∧ (arm e adr cnt dts s).ep1OutDts = s.ep1OutDts ∧ (arm e adr
    cnt dts s).ep1InDts = s.ep1InDts ∧ (arm e adr cnt dts s).spiIf = s.spiIf ∧ (arm e adr cnt dts s).busResetIf
    = s.busResetIf ∧ (arm e adr cnt dts s).busOtherIf = s.busOtherIf ∧ (arm e adr cnt dts s).timerIf = s.timerIf
    ∧ (arm e adr cnt dts s).trnFifo = s.trnFifo ∧ (arm e adr cnt dts s).fatal = s.fatal ∧ (arm e adr cnt dts
    s).ram = s.ram ∧ (arm e adr cnt dts s).draws = s.draws ∧ (arm e adr cnt dts s).hostLog = s.hostLog ∧ (arm e
    adr cnt dts s).inputs = s.inputs := by
  unfold arm; (repeat' split) <;> simp

/-- R36: `Stall` writes descriptors, the record and the trace. -/
@[simp] theorem stall_frame (e : BdId) (s : State) :
    (stall e s).cfg = s.cfg ∧ (stall e s).spiActive = s.spiActive ∧ (stall e s).spiPtr = s.spiPtr ∧ (stall e
    s).spiRemaining = s.spiRemaining ∧ (stall e s).spiCallback = s.spiCallback ∧ (stall e s).spiCs = s.spiCs ∧
    (stall e s).shBusy = s.shBusy ∧ (stall e s).shTx = s.shTx ∧ (stall e s).shRx = s.shRx ∧ (stall e s).shRxFull
    = s.shRxFull ∧ (stall e s).value0 = s.value0 ∧ (stall e s).value1 = s.value1 ∧ (stall e s).dpPos = s.dpPos ∧
    (stall e s).keyIe = s.keyIe ∧ (stall e s).keyIf = s.keyIf ∧ (stall e s).usbAddr = s.usbAddr ∧ (stall e
    s).pendAddr = s.pendAddr ∧ (stall e s).configured = s.configured ∧ (stall e s).ctlDir = s.ctlDir ∧ (stall e
    s).ctlSrcTable = s.ctlSrcTable ∧ (stall e s).ctlSrcOff = s.ctlSrcOff ∧ (stall e s).ctlDst = s.ctlDst ∧
    (stall e s).ctlRemaining = s.ctlRemaining ∧ (stall e s).ctlToggle = s.ctlToggle ∧ (stall e s).ctlZlp =
    s.ctlZlp ∧ (stall e s).ctlStatus = s.ctlStatus ∧ (stall e s).ep1Enabled = s.ep1Enabled ∧ (stall e
    s).ep1OutDts = s.ep1OutDts ∧ (stall e s).ep1InDts = s.ep1InDts ∧ (stall e s).spiIf = s.spiIf ∧ (stall e
    s).busResetIf = s.busResetIf ∧ (stall e s).busOtherIf = s.busOtherIf ∧ (stall e s).timerIf = s.timerIf ∧
    (stall e s).trnFifo = s.trnFifo ∧ (stall e s).fatal = s.fatal ∧ (stall e s).ram = s.ram ∧ (stall e s).draws
    = s.draws ∧ (stall e s).hostLog = s.hostLog ∧ (stall e s).inputs = s.inputs := by
  unfold stall; (repeat' split) <;> simp

/-- R36: `Reclaim` writes descriptors and the trace. -/
@[simp] theorem reclaim_frame (e : BdId) (s : State) :
    (reclaim e s).cfg = s.cfg ∧ (reclaim e s).spiActive = s.spiActive ∧ (reclaim e s).spiPtr = s.spiPtr ∧
    (reclaim e s).spiRemaining = s.spiRemaining ∧ (reclaim e s).spiCallback = s.spiCallback ∧ (reclaim e
    s).spiCs = s.spiCs ∧ (reclaim e s).shBusy = s.shBusy ∧ (reclaim e s).shTx = s.shTx ∧ (reclaim e s).shRx =
    s.shRx ∧ (reclaim e s).shRxFull = s.shRxFull ∧ (reclaim e s).value0 = s.value0 ∧ (reclaim e s).value1 =
    s.value1 ∧ (reclaim e s).dpPos = s.dpPos ∧ (reclaim e s).keyIe = s.keyIe ∧ (reclaim e s).keyIf = s.keyIf ∧
    (reclaim e s).usbAddr = s.usbAddr ∧ (reclaim e s).pendAddr = s.pendAddr ∧ (reclaim e s).configured =
    s.configured ∧ (reclaim e s).ctlDir = s.ctlDir ∧ (reclaim e s).ctlSrcTable = s.ctlSrcTable ∧ (reclaim e
    s).ctlSrcOff = s.ctlSrcOff ∧ (reclaim e s).ctlDst = s.ctlDst ∧ (reclaim e s).ctlRemaining = s.ctlRemaining ∧
    (reclaim e s).ctlToggle = s.ctlToggle ∧ (reclaim e s).ctlZlp = s.ctlZlp ∧ (reclaim e s).ctlStatus =
    s.ctlStatus ∧ (reclaim e s).ep1Enabled = s.ep1Enabled ∧ (reclaim e s).ep1OutDts = s.ep1OutDts ∧ (reclaim e
    s).ep1InDts = s.ep1InDts ∧ (reclaim e s).spiIf = s.spiIf ∧ (reclaim e s).busResetIf = s.busResetIf ∧
    (reclaim e s).busOtherIf = s.busOtherIf ∧ (reclaim e s).timerIf = s.timerIf ∧ (reclaim e s).trnFifo =
    s.trnFifo ∧ (reclaim e s).fatal = s.fatal ∧ (reclaim e s).faults = s.faults ∧ (reclaim e s).ram = s.ram ∧
    (reclaim e s).draws = s.draws ∧ (reclaim e s).hostLog = s.hostLog ∧ (reclaim e s).inputs = s.inputs := by
  simp [reclaim]

/-- So does the guarded `Reclaim`. -/
@[simp] theorem reclaimIfArmed_frame (e : BdId) (s : State) :
    (reclaimIfArmed e s).cfg = s.cfg ∧ (reclaimIfArmed e s).spiActive = s.spiActive ∧ (reclaimIfArmed e
    s).spiPtr = s.spiPtr ∧ (reclaimIfArmed e s).spiRemaining = s.spiRemaining ∧ (reclaimIfArmed e s).spiCallback
    = s.spiCallback ∧ (reclaimIfArmed e s).spiCs = s.spiCs ∧ (reclaimIfArmed e s).shBusy = s.shBusy ∧
    (reclaimIfArmed e s).shTx = s.shTx ∧ (reclaimIfArmed e s).shRx = s.shRx ∧ (reclaimIfArmed e s).shRxFull =
    s.shRxFull ∧ (reclaimIfArmed e s).value0 = s.value0 ∧ (reclaimIfArmed e s).value1 = s.value1 ∧
    (reclaimIfArmed e s).dpPos = s.dpPos ∧ (reclaimIfArmed e s).keyIe = s.keyIe ∧ (reclaimIfArmed e s).keyIf =
    s.keyIf ∧ (reclaimIfArmed e s).usbAddr = s.usbAddr ∧ (reclaimIfArmed e s).pendAddr = s.pendAddr ∧
    (reclaimIfArmed e s).configured = s.configured ∧ (reclaimIfArmed e s).ctlDir = s.ctlDir ∧ (reclaimIfArmed e
    s).ctlSrcTable = s.ctlSrcTable ∧ (reclaimIfArmed e s).ctlSrcOff = s.ctlSrcOff ∧ (reclaimIfArmed e s).ctlDst
    = s.ctlDst ∧ (reclaimIfArmed e s).ctlRemaining = s.ctlRemaining ∧ (reclaimIfArmed e s).ctlToggle =
    s.ctlToggle ∧ (reclaimIfArmed e s).ctlZlp = s.ctlZlp ∧ (reclaimIfArmed e s).ctlStatus = s.ctlStatus ∧
    (reclaimIfArmed e s).ep1Enabled = s.ep1Enabled ∧ (reclaimIfArmed e s).ep1OutDts = s.ep1OutDts ∧
    (reclaimIfArmed e s).ep1InDts = s.ep1InDts ∧ (reclaimIfArmed e s).spiIf = s.spiIf ∧ (reclaimIfArmed e
    s).busResetIf = s.busResetIf ∧ (reclaimIfArmed e s).busOtherIf = s.busOtherIf ∧ (reclaimIfArmed e s).timerIf
    = s.timerIf ∧ (reclaimIfArmed e s).trnFifo = s.trnFifo ∧ (reclaimIfArmed e s).fatal = s.fatal ∧
    (reclaimIfArmed e s).faults = s.faults ∧ (reclaimIfArmed e s).ram = s.ram ∧ (reclaimIfArmed e s).draws =
    s.draws ∧ (reclaimIfArmed e s).hostLog = s.hostLog ∧ (reclaimIfArmed e s).inputs = s.inputs := by
  unfold reclaimIfArmed; (repeat' split) <;> simp

/-- A descriptor after `setBd`. -/
theorem bd_setBd (e e' : BdId) (b : BufferDescriptor) (s : State) :
    (s.setBd e b).bd e' = if e' = e then b else s.bd e' := by
  cases e <;> cases e' <;> rfl

/-- Only `cfg` is read beside the descriptors: `bd` reads the descriptors alone. -/
theorem bd_congr {s t : State} (h : t.bdEp0Out = s.bdEp0Out ∧ t.bdEp0In = s.bdEp0In ∧ t.bdEp1Out = s.bdEp1Out ∧
    t.bdEp1In = s.bdEp1In) (e : BdId) : t.bd e = s.bd e := by
  obtain ⟨h0, h1, h2, h3⟩ := h
  cases e <;> assumption

/-- `emit` leaves every descriptor as it is. -/
@[simp] theorem emit_bd (v : Event) (s : State) (e : BdId) : (emit v s).bd e = s.bd e := by
  cases e <;> rfl

/-- A model fault leaves every descriptor as it is. -/
@[simp] theorem raiseModelFault_bd (c : ModelCause) (s : State) (e : BdId) :
    (raiseModelFault c s).bd e = s.bd e := by
  cases e <;> rfl

/-- `Arm` of an SIE-owned descriptor is the model fault `BD_OWNERSHIP` and nothing else (log 12). -/
theorem arm_sie {e : BdId} {s : State} (adr : Word16) (cnt : BitVec 10) (dts : Toggle) (h : (s.bd e).own = .sie) :
    arm e adr cnt dts s = raiseModelFault .bdOwnership s := by
  simp [arm, h]

/-- R36: `Arm` of a CPU-owned descriptor. -/
theorem arm_cpu {e : BdId} {s : State} (adr : Word16) (cnt : BitVec 10) (dts : Toggle) (h : (s.bd e).own = .cpu) :
    arm e adr cnt dts s = emit (.arm e cnt dts)
      (s.setBd e { own := .sie, dts := dts, cnt := cnt, adr := adr, stall := false, pid := (s.bd e).pid }) := by
  simp [arm, h]

/-- Every descriptor after `Arm` (R36). -/
theorem arm_bd (e e' : BdId) (adr : Word16) (cnt : BitVec 10) (dts : Toggle) (s : State) :
    (arm e adr cnt dts s).bd e' =
      if (s.bd e).own = .cpu ∧ e' = e then
        { own := .sie, dts := dts, cnt := cnt, adr := adr, stall := false, pid := (s.bd e).pid }
      else s.bd e' := by
  cases h : (s.bd e).own
  · rw [arm_cpu _ _ _ h, emit_bd, bd_setBd]
    simp
  · rw [arm_sie _ _ _ h, raiseModelFault_bd]
    simp

/-- Every descriptor after `Stall` (R36). -/
theorem stall_bd (e e' : BdId) (s : State) :
    (stall e s).bd e' =
      if (s.bd e).own = .cpu ∧ e' = e then { s.bd e with stall := true, own := .sie } else s.bd e' := by
  cases h : (s.bd e).own
  · simp only [stall, h, reduceCtorEq, ↓reduceIte, true_and]
    rw [emit_bd, bd_setBd]
  · simp only [stall, h, reduceCtorEq, ↓reduceIte, false_and]
    rw [raiseModelFault_bd]

/-- Every descriptor after `Reclaim` (R36). -/
theorem reclaim_bd (e e' : BdId) (s : State) :
    (reclaim e s).bd e' = if e' = e then { s.bd e with own := .cpu, stall := false } else s.bd e' := by
  rw [reclaim, emit_bd, bd_setBd]

/-- Every descriptor after the guarded `Reclaim`. -/
theorem reclaimIfArmed_bd (e e' : BdId) (s : State) :
    (reclaimIfArmed e s).bd e' =
      if (s.bd e).own = .sie ∧ e' = e then { s.bd e with own := .cpu, stall := false } else s.bd e' := by
  cases h : (s.bd e).own
  · simp [reclaimIfArmed, h]
  · simp only [reclaimIfArmed, h, ↓reduceIte, true_and]
    exact reclaim_bd e e' s

/-- `Arm` of one descriptor leaves every other as it is. -/
theorem arm_bd_ne (adr : Word16) (cnt : BitVec 10) (dts : Toggle) (e : BdId) {e' : BdId} (s : State) (h : e' ≠ e) :
    (arm e adr cnt dts s).bd e' = s.bd e' := by
  rw [arm_bd]; simp [h]

/-- `Stall` of one descriptor leaves every other as it is. -/
theorem stall_bd_ne (e : BdId) {e' : BdId} (s : State) (h : e' ≠ e) : (stall e s).bd e' = s.bd e' := by
  rw [stall_bd]; simp [h]

/-- `Reclaim` of one descriptor leaves every other as it is. -/
theorem reclaim_bd_ne (e : BdId) {e' : BdId} (s : State) (h : e' ≠ e) : (reclaim e s).bd e' = s.bd e' := by
  rw [reclaim_bd]; simp [h]

/-- So does the guarded `Reclaim`. -/
theorem reclaimIfArmed_bd_ne (e : BdId) {e' : BdId} (s : State) (h : e' ≠ e) :
    (reclaimIfArmed e s).bd e' = s.bd e' := by
  rw [reclaimIfArmed_bd]; simp [h]

/-- `arm` leaves the other three descriptors as they are. -/
@[simp] theorem arm_others (adr : Word16) (cnt : BitVec 10) (dts : Toggle) (s : State) :
    (arm .ep0Out adr cnt dts s).bdEp0In = s.bdEp0In ∧ (arm .ep0Out adr cnt dts s).bdEp1Out = s.bdEp1Out ∧ (arm
    .ep0Out adr cnt dts s).bdEp1In = s.bdEp1In ∧ (arm .ep0In adr cnt dts s).bdEp0Out = s.bdEp0Out ∧ (arm .ep0In
    adr cnt dts s).bdEp1Out = s.bdEp1Out ∧ (arm .ep0In adr cnt dts s).bdEp1In = s.bdEp1In ∧ (arm .ep1Out adr cnt
    dts s).bdEp0Out = s.bdEp0Out ∧ (arm .ep1Out adr cnt dts s).bdEp0In = s.bdEp0In ∧ (arm .ep1Out adr cnt dts
    s).bdEp1In = s.bdEp1In ∧ (arm .ep1In adr cnt dts s).bdEp0Out = s.bdEp0Out ∧ (arm .ep1In adr cnt dts
    s).bdEp0In = s.bdEp0In ∧ (arm .ep1In adr cnt dts s).bdEp1Out = s.bdEp1Out :=
  ⟨arm_bd_ne _ _ _ .ep0Out (e' := .ep0In) s (by decide),
    arm_bd_ne _ _ _ .ep0Out (e' := .ep1Out) s (by decide),
    arm_bd_ne _ _ _ .ep0Out (e' := .ep1In) s (by decide),
    arm_bd_ne _ _ _ .ep0In (e' := .ep0Out) s (by decide),
    arm_bd_ne _ _ _ .ep0In (e' := .ep1Out) s (by decide),
    arm_bd_ne _ _ _ .ep0In (e' := .ep1In) s (by decide),
    arm_bd_ne _ _ _ .ep1Out (e' := .ep0Out) s (by decide),
    arm_bd_ne _ _ _ .ep1Out (e' := .ep0In) s (by decide),
    arm_bd_ne _ _ _ .ep1Out (e' := .ep1In) s (by decide),
    arm_bd_ne _ _ _ .ep1In (e' := .ep0Out) s (by decide),
    arm_bd_ne _ _ _ .ep1In (e' := .ep0In) s (by decide),
    arm_bd_ne _ _ _ .ep1In (e' := .ep1Out) s (by decide)⟩

/-- `stall` leaves the other three descriptors as they are. -/
@[simp] theorem stall_others (s : State) :
    (stall .ep0Out s).bdEp0In = s.bdEp0In ∧ (stall .ep0Out s).bdEp1Out = s.bdEp1Out ∧ (stall .ep0Out s).bdEp1In
    = s.bdEp1In ∧ (stall .ep0In s).bdEp0Out = s.bdEp0Out ∧ (stall .ep0In s).bdEp1Out = s.bdEp1Out ∧ (stall
    .ep0In s).bdEp1In = s.bdEp1In ∧ (stall .ep1Out s).bdEp0Out = s.bdEp0Out ∧ (stall .ep1Out s).bdEp0In =
    s.bdEp0In ∧ (stall .ep1Out s).bdEp1In = s.bdEp1In ∧ (stall .ep1In s).bdEp0Out = s.bdEp0Out ∧ (stall .ep1In
    s).bdEp0In = s.bdEp0In ∧ (stall .ep1In s).bdEp1Out = s.bdEp1Out :=
  ⟨stall_bd_ne .ep0Out (e' := .ep0In) s (by decide), stall_bd_ne .ep0Out (e' := .ep1Out) s (by decide),
    stall_bd_ne .ep0Out (e' := .ep1In) s (by decide), stall_bd_ne .ep0In (e' := .ep0Out) s (by decide),
    stall_bd_ne .ep0In (e' := .ep1Out) s (by decide), stall_bd_ne .ep0In (e' := .ep1In) s (by decide),
    stall_bd_ne .ep1Out (e' := .ep0Out) s (by decide), stall_bd_ne .ep1Out (e' := .ep0In) s (by decide),
    stall_bd_ne .ep1Out (e' := .ep1In) s (by decide), stall_bd_ne .ep1In (e' := .ep0Out) s (by decide),
    stall_bd_ne .ep1In (e' := .ep0In) s (by decide), stall_bd_ne .ep1In (e' := .ep1Out) s (by decide)⟩

/-- `reclaim` leaves the other three descriptors as they are. -/
@[simp] theorem reclaim_others (s : State) :
    (reclaim .ep0Out s).bdEp0In = s.bdEp0In ∧ (reclaim .ep0Out s).bdEp1Out = s.bdEp1Out ∧ (reclaim .ep0Out
    s).bdEp1In = s.bdEp1In ∧ (reclaim .ep0In s).bdEp0Out = s.bdEp0Out ∧ (reclaim .ep0In s).bdEp1Out = s.bdEp1Out
    ∧ (reclaim .ep0In s).bdEp1In = s.bdEp1In ∧ (reclaim .ep1Out s).bdEp0Out = s.bdEp0Out ∧ (reclaim .ep1Out
    s).bdEp0In = s.bdEp0In ∧ (reclaim .ep1Out s).bdEp1In = s.bdEp1In ∧ (reclaim .ep1In s).bdEp0Out = s.bdEp0Out
    ∧ (reclaim .ep1In s).bdEp0In = s.bdEp0In ∧ (reclaim .ep1In s).bdEp1Out = s.bdEp1Out :=
  ⟨reclaim_bd_ne .ep0Out (e' := .ep0In) s (by decide), reclaim_bd_ne .ep0Out (e' := .ep1Out) s (by decide),
    reclaim_bd_ne .ep0Out (e' := .ep1In) s (by decide), reclaim_bd_ne .ep0In (e' := .ep0Out) s (by decide),
    reclaim_bd_ne .ep0In (e' := .ep1Out) s (by decide), reclaim_bd_ne .ep0In (e' := .ep1In) s (by decide),
    reclaim_bd_ne .ep1Out (e' := .ep0Out) s (by decide), reclaim_bd_ne .ep1Out (e' := .ep0In) s (by decide),
    reclaim_bd_ne .ep1Out (e' := .ep1In) s (by decide), reclaim_bd_ne .ep1In (e' := .ep0Out) s (by decide),
    reclaim_bd_ne .ep1In (e' := .ep0In) s (by decide), reclaim_bd_ne .ep1In (e' := .ep1Out) s (by decide)⟩

/-- `reclaimIfArmed` leaves the other three descriptors as they are. -/
@[simp] theorem reclaimIfArmed_others (s : State) :
    (reclaimIfArmed .ep0Out s).bdEp0In = s.bdEp0In ∧ (reclaimIfArmed .ep0Out s).bdEp1Out = s.bdEp1Out ∧
    (reclaimIfArmed .ep0Out s).bdEp1In = s.bdEp1In ∧ (reclaimIfArmed .ep0In s).bdEp0Out = s.bdEp0Out ∧
    (reclaimIfArmed .ep0In s).bdEp1Out = s.bdEp1Out ∧ (reclaimIfArmed .ep0In s).bdEp1In = s.bdEp1In ∧
    (reclaimIfArmed .ep1Out s).bdEp0Out = s.bdEp0Out ∧ (reclaimIfArmed .ep1Out s).bdEp0In = s.bdEp0In ∧
    (reclaimIfArmed .ep1Out s).bdEp1In = s.bdEp1In ∧ (reclaimIfArmed .ep1In s).bdEp0Out = s.bdEp0Out ∧
    (reclaimIfArmed .ep1In s).bdEp0In = s.bdEp0In ∧ (reclaimIfArmed .ep1In s).bdEp1Out = s.bdEp1Out :=
  ⟨reclaimIfArmed_bd_ne .ep0Out (e' := .ep0In) s (by decide),
    reclaimIfArmed_bd_ne .ep0Out (e' := .ep1Out) s (by decide),
    reclaimIfArmed_bd_ne .ep0Out (e' := .ep1In) s (by decide),
    reclaimIfArmed_bd_ne .ep0In (e' := .ep0Out) s (by decide),
    reclaimIfArmed_bd_ne .ep0In (e' := .ep1Out) s (by decide),
    reclaimIfArmed_bd_ne .ep0In (e' := .ep1In) s (by decide),
    reclaimIfArmed_bd_ne .ep1Out (e' := .ep0Out) s (by decide),
    reclaimIfArmed_bd_ne .ep1Out (e' := .ep0In) s (by decide),
    reclaimIfArmed_bd_ne .ep1Out (e' := .ep1In) s (by decide),
    reclaimIfArmed_bd_ne .ep1In (e' := .ep0Out) s (by decide),
    reclaimIfArmed_bd_ne .ep1In (e' := .ep0In) s (by decide),
    reclaimIfArmed_bd_ne .ep1In (e' := .ep1Out) s (by decide)⟩

/-- `ShifterWrite(RAM[a])`. -/
@[simp] theorem sendByte_frame (a : Nat) (s : State) :
    (sendByte a s).cfg = s.cfg ∧ (sendByte a s).spiActive = s.spiActive ∧ (sendByte a s).spiPtr = s.spiPtr ∧
    (sendByte a s).spiRemaining = s.spiRemaining ∧ (sendByte a s).spiCallback = s.spiCallback ∧ (sendByte a
    s).spiCs = s.spiCs ∧ (sendByte a s).shRx = s.shRx ∧ (sendByte a s).shRxFull = s.shRxFull ∧ (sendByte a
    s).value0 = s.value0 ∧ (sendByte a s).value1 = s.value1 ∧ (sendByte a s).dpPos = s.dpPos ∧ (sendByte a
    s).keyIe = s.keyIe ∧ (sendByte a s).keyIf = s.keyIf ∧ (sendByte a s).usbAddr = s.usbAddr ∧ (sendByte a
    s).pendAddr = s.pendAddr ∧ (sendByte a s).configured = s.configured ∧ (sendByte a s).ctlDir = s.ctlDir ∧
    (sendByte a s).ctlSrcTable = s.ctlSrcTable ∧ (sendByte a s).ctlSrcOff = s.ctlSrcOff ∧ (sendByte a s).ctlDst
    = s.ctlDst ∧ (sendByte a s).ctlRemaining = s.ctlRemaining ∧ (sendByte a s).ctlToggle = s.ctlToggle ∧
    (sendByte a s).ctlZlp = s.ctlZlp ∧ (sendByte a s).ctlStatus = s.ctlStatus ∧ (sendByte a s).bdEp0Out =
    s.bdEp0Out ∧ (sendByte a s).bdEp0In = s.bdEp0In ∧ (sendByte a s).bdEp1Out = s.bdEp1Out ∧ (sendByte a
    s).bdEp1In = s.bdEp1In ∧ (sendByte a s).ep1Enabled = s.ep1Enabled ∧ (sendByte a s).ep1OutDts = s.ep1OutDts ∧
    (sendByte a s).ep1InDts = s.ep1InDts ∧ (sendByte a s).spiIf = s.spiIf ∧ (sendByte a s).busResetIf =
    s.busResetIf ∧ (sendByte a s).busOtherIf = s.busOtherIf ∧ (sendByte a s).timerIf = s.timerIf ∧ (sendByte a
    s).trnFifo = s.trnFifo ∧ (sendByte a s).fatal = s.fatal ∧ (sendByte a s).ram = s.ram ∧ (sendByte a
    s).hostLog = s.hostLog ∧ (sendByte a s).inputs = s.inputs := by
  simp [sendByte]

/-- R120, an accepted request. -/
@[simp] theorem startAccepted_frame (buf : Word16) (len : Byte) (cb : Callback) (s : State) :
    (startAccepted buf len cb s).cfg = s.cfg ∧ (startAccepted buf len cb s).shRx = s.shRx ∧ (startAccepted buf
    len cb s).shRxFull = s.shRxFull ∧ (startAccepted buf len cb s).value0 = s.value0 ∧ (startAccepted buf len cb
    s).value1 = s.value1 ∧ (startAccepted buf len cb s).dpPos = s.dpPos ∧ (startAccepted buf len cb s).keyIe =
    s.keyIe ∧ (startAccepted buf len cb s).keyIf = s.keyIf ∧ (startAccepted buf len cb s).usbAddr = s.usbAddr ∧
    (startAccepted buf len cb s).pendAddr = s.pendAddr ∧ (startAccepted buf len cb s).configured = s.configured
    ∧ (startAccepted buf len cb s).ctlDir = s.ctlDir ∧ (startAccepted buf len cb s).ctlSrcTable = s.ctlSrcTable
    ∧ (startAccepted buf len cb s).ctlSrcOff = s.ctlSrcOff ∧ (startAccepted buf len cb s).ctlDst = s.ctlDst ∧
    (startAccepted buf len cb s).ctlRemaining = s.ctlRemaining ∧ (startAccepted buf len cb s).ctlToggle =
    s.ctlToggle ∧ (startAccepted buf len cb s).ctlZlp = s.ctlZlp ∧ (startAccepted buf len cb s).ctlStatus =
    s.ctlStatus ∧ (startAccepted buf len cb s).bdEp0Out = s.bdEp0Out ∧ (startAccepted buf len cb s).bdEp0In =
    s.bdEp0In ∧ (startAccepted buf len cb s).bdEp1Out = s.bdEp1Out ∧ (startAccepted buf len cb s).bdEp1In =
    s.bdEp1In ∧ (startAccepted buf len cb s).ep1Enabled = s.ep1Enabled ∧ (startAccepted buf len cb s).ep1OutDts
    = s.ep1OutDts ∧ (startAccepted buf len cb s).ep1InDts = s.ep1InDts ∧ (startAccepted buf len cb s).spiIf =
    s.spiIf ∧ (startAccepted buf len cb s).busResetIf = s.busResetIf ∧ (startAccepted buf len cb s).busOtherIf =
    s.busOtherIf ∧ (startAccepted buf len cb s).timerIf = s.timerIf ∧ (startAccepted buf len cb s).trnFifo =
    s.trnFifo ∧ (startAccepted buf len cb s).fatal = s.fatal ∧ (startAccepted buf len cb s).ram = s.ram ∧
    (startAccepted buf len cb s).hostLog = s.hostLog ∧ (startAccepted buf len cb s).inputs = s.inputs := by
  simp [startAccepted]

/-- R120: what `StartExchange` can write. -/
@[simp] theorem startExchange_frame (buf : Word16) (len : Byte) (cb : Callback) (s : State) :
    (startExchange buf len cb s).cfg = s.cfg ∧ (startExchange buf len cb s).shRx = s.shRx ∧ (startExchange buf
    len cb s).shRxFull = s.shRxFull ∧ (startExchange buf len cb s).value0 = s.value0 ∧ (startExchange buf len cb
    s).value1 = s.value1 ∧ (startExchange buf len cb s).dpPos = s.dpPos ∧ (startExchange buf len cb s).keyIe =
    s.keyIe ∧ (startExchange buf len cb s).keyIf = s.keyIf ∧ (startExchange buf len cb s).usbAddr = s.usbAddr ∧
    (startExchange buf len cb s).pendAddr = s.pendAddr ∧ (startExchange buf len cb s).configured = s.configured
    ∧ (startExchange buf len cb s).ctlDir = s.ctlDir ∧ (startExchange buf len cb s).ctlSrcTable = s.ctlSrcTable
    ∧ (startExchange buf len cb s).ctlSrcOff = s.ctlSrcOff ∧ (startExchange buf len cb s).ctlDst = s.ctlDst ∧
    (startExchange buf len cb s).ctlRemaining = s.ctlRemaining ∧ (startExchange buf len cb s).ctlToggle =
    s.ctlToggle ∧ (startExchange buf len cb s).ctlZlp = s.ctlZlp ∧ (startExchange buf len cb s).ctlStatus =
    s.ctlStatus ∧ (startExchange buf len cb s).bdEp0Out = s.bdEp0Out ∧ (startExchange buf len cb s).bdEp0In =
    s.bdEp0In ∧ (startExchange buf len cb s).bdEp1Out = s.bdEp1Out ∧ (startExchange buf len cb s).bdEp1In =
    s.bdEp1In ∧ (startExchange buf len cb s).ep1Enabled = s.ep1Enabled ∧ (startExchange buf len cb s).ep1OutDts
    = s.ep1OutDts ∧ (startExchange buf len cb s).ep1InDts = s.ep1InDts ∧ (startExchange buf len cb s).spiIf =
    s.spiIf ∧ (startExchange buf len cb s).busResetIf = s.busResetIf ∧ (startExchange buf len cb s).busOtherIf =
    s.busOtherIf ∧ (startExchange buf len cb s).timerIf = s.timerIf ∧ (startExchange buf len cb s).trnFifo =
    s.trnFifo ∧ (startExchange buf len cb s).ram = s.ram ∧ (startExchange buf len cb s).hostLog = s.hostLog ∧
    (startExchange buf len cb s).inputs = s.inputs := by
  unfold startExchange; (repeat' split) <;> simp

/-- R145. -/
@[simp] theorem initializeChip_frame (s : State) :
    (initializeChip s).cfg = s.cfg ∧ (initializeChip s).shRx = s.shRx ∧ (initializeChip s).shRxFull = s.shRxFull
    ∧ (initializeChip s).value0 = s.value0 ∧ (initializeChip s).value1 = s.value1 ∧ (initializeChip s).dpPos =
    s.dpPos ∧ (initializeChip s).keyIe = s.keyIe ∧ (initializeChip s).keyIf = s.keyIf ∧ (initializeChip
    s).usbAddr = s.usbAddr ∧ (initializeChip s).pendAddr = s.pendAddr ∧ (initializeChip s).configured =
    s.configured ∧ (initializeChip s).ctlDir = s.ctlDir ∧ (initializeChip s).ctlSrcTable = s.ctlSrcTable ∧
    (initializeChip s).ctlSrcOff = s.ctlSrcOff ∧ (initializeChip s).ctlDst = s.ctlDst ∧ (initializeChip
    s).ctlRemaining = s.ctlRemaining ∧ (initializeChip s).ctlToggle = s.ctlToggle ∧ (initializeChip s).ctlZlp =
    s.ctlZlp ∧ (initializeChip s).ctlStatus = s.ctlStatus ∧ (initializeChip s).bdEp0Out = s.bdEp0Out ∧
    (initializeChip s).bdEp0In = s.bdEp0In ∧ (initializeChip s).bdEp1Out = s.bdEp1Out ∧ (initializeChip
    s).bdEp1In = s.bdEp1In ∧ (initializeChip s).ep1Enabled = s.ep1Enabled ∧ (initializeChip s).ep1OutDts =
    s.ep1OutDts ∧ (initializeChip s).ep1InDts = s.ep1InDts ∧ (initializeChip s).spiIf = s.spiIf ∧
    (initializeChip s).busResetIf = s.busResetIf ∧ (initializeChip s).busOtherIf = s.busOtherIf ∧
    (initializeChip s).timerIf = s.timerIf ∧ (initializeChip s).trnFifo = s.trnFifo ∧ (initializeChip s).hostLog
    = s.hostLog ∧ (initializeChip s).inputs = s.inputs := by
  simp [initializeChip]

/-- R146. -/
@[simp] theorem initDone_frame (s : State) :
    (initDone s).cfg = s.cfg ∧ (initDone s).spiActive = s.spiActive ∧ (initDone s).spiPtr = s.spiPtr ∧ (initDone
    s).spiRemaining = s.spiRemaining ∧ (initDone s).spiCallback = s.spiCallback ∧ (initDone s).spiCs = s.spiCs ∧
    (initDone s).shBusy = s.shBusy ∧ (initDone s).shTx = s.shTx ∧ (initDone s).shRx = s.shRx ∧ (initDone
    s).shRxFull = s.shRxFull ∧ (initDone s).value0 = s.value0 ∧ (initDone s).value1 = s.value1 ∧ (initDone
    s).dpPos = s.dpPos ∧ (initDone s).keyIf = s.keyIf ∧ (initDone s).usbAddr = s.usbAddr ∧ (initDone s).pendAddr
    = s.pendAddr ∧ (initDone s).configured = s.configured ∧ (initDone s).ctlDir = s.ctlDir ∧ (initDone
    s).ctlSrcTable = s.ctlSrcTable ∧ (initDone s).ctlSrcOff = s.ctlSrcOff ∧ (initDone s).ctlDst = s.ctlDst ∧
    (initDone s).ctlRemaining = s.ctlRemaining ∧ (initDone s).ctlToggle = s.ctlToggle ∧ (initDone s).ctlZlp =
    s.ctlZlp ∧ (initDone s).ctlStatus = s.ctlStatus ∧ (initDone s).bdEp0Out = s.bdEp0Out ∧ (initDone s).bdEp0In
    = s.bdEp0In ∧ (initDone s).bdEp1Out = s.bdEp1Out ∧ (initDone s).bdEp1In = s.bdEp1In ∧ (initDone
    s).ep1Enabled = s.ep1Enabled ∧ (initDone s).ep1OutDts = s.ep1OutDts ∧ (initDone s).ep1InDts = s.ep1InDts ∧
    (initDone s).spiIf = s.spiIf ∧ (initDone s).busResetIf = s.busResetIf ∧ (initDone s).busOtherIf =
    s.busOtherIf ∧ (initDone s).timerIf = s.timerIf ∧ (initDone s).trnFifo = s.trnFifo ∧ (initDone s).fatal =
    s.fatal ∧ (initDone s).faults = s.faults ∧ (initDone s).ram = s.ram ∧ (initDone s).draws = s.draws ∧
    (initDone s).hostLog = s.hostLog ∧ (initDone s).inputs = s.inputs := by
  simp [initDone]

/-- R148. -/
@[simp] theorem terminate_frame (s : State) :
    (terminate s).cfg = s.cfg ∧ (terminate s).shRx = s.shRx ∧ (terminate s).shRxFull = s.shRxFull ∧ (terminate
    s).value0 = s.value0 ∧ (terminate s).value1 = s.value1 ∧ (terminate s).dpPos = s.dpPos ∧ (terminate s).keyIf
    = s.keyIf ∧ (terminate s).usbAddr = s.usbAddr ∧ (terminate s).pendAddr = s.pendAddr ∧ (terminate
    s).configured = s.configured ∧ (terminate s).ctlDir = s.ctlDir ∧ (terminate s).ctlSrcTable = s.ctlSrcTable ∧
    (terminate s).ctlSrcOff = s.ctlSrcOff ∧ (terminate s).ctlDst = s.ctlDst ∧ (terminate s).ctlRemaining =
    s.ctlRemaining ∧ (terminate s).ctlToggle = s.ctlToggle ∧ (terminate s).ctlZlp = s.ctlZlp ∧ (terminate
    s).ctlStatus = s.ctlStatus ∧ (terminate s).bdEp0Out = s.bdEp0Out ∧ (terminate s).bdEp0In = s.bdEp0In ∧
    (terminate s).bdEp1Out = s.bdEp1Out ∧ (terminate s).bdEp1In = s.bdEp1In ∧ (terminate s).ep1Enabled =
    s.ep1Enabled ∧ (terminate s).ep1OutDts = s.ep1OutDts ∧ (terminate s).ep1InDts = s.ep1InDts ∧ (terminate
    s).spiIf = s.spiIf ∧ (terminate s).busResetIf = s.busResetIf ∧ (terminate s).busOtherIf = s.busOtherIf ∧
    (terminate s).timerIf = s.timerIf ∧ (terminate s).trnFifo = s.trnFifo ∧ (terminate s).hostLog = s.hostLog ∧
    (terminate s).inputs = s.inputs := by
  simp [terminate]

/-- R150, before its `StartExchange`. -/
@[simp] theorem storeValues_frame (v0 v1 : StoredValue) (s : State) :
    (storeValues v0 v1 s).cfg = s.cfg ∧ (storeValues v0 v1 s).spiActive = s.spiActive ∧ (storeValues v0 v1
    s).spiPtr = s.spiPtr ∧ (storeValues v0 v1 s).spiRemaining = s.spiRemaining ∧ (storeValues v0 v1
    s).spiCallback = s.spiCallback ∧ (storeValues v0 v1 s).spiCs = s.spiCs ∧ (storeValues v0 v1 s).shBusy =
    s.shBusy ∧ (storeValues v0 v1 s).shTx = s.shTx ∧ (storeValues v0 v1 s).shRx = s.shRx ∧ (storeValues v0 v1
    s).shRxFull = s.shRxFull ∧ (storeValues v0 v1 s).dpPos = s.dpPos ∧ (storeValues v0 v1 s).keyIe = s.keyIe ∧
    (storeValues v0 v1 s).keyIf = s.keyIf ∧ (storeValues v0 v1 s).usbAddr = s.usbAddr ∧ (storeValues v0 v1
    s).pendAddr = s.pendAddr ∧ (storeValues v0 v1 s).configured = s.configured ∧ (storeValues v0 v1 s).ctlDir =
    s.ctlDir ∧ (storeValues v0 v1 s).ctlSrcTable = s.ctlSrcTable ∧ (storeValues v0 v1 s).ctlSrcOff = s.ctlSrcOff
    ∧ (storeValues v0 v1 s).ctlDst = s.ctlDst ∧ (storeValues v0 v1 s).ctlRemaining = s.ctlRemaining ∧
    (storeValues v0 v1 s).ctlToggle = s.ctlToggle ∧ (storeValues v0 v1 s).ctlZlp = s.ctlZlp ∧ (storeValues v0 v1
    s).ctlStatus = s.ctlStatus ∧ (storeValues v0 v1 s).bdEp0Out = s.bdEp0Out ∧ (storeValues v0 v1 s).bdEp0In =
    s.bdEp0In ∧ (storeValues v0 v1 s).bdEp1Out = s.bdEp1Out ∧ (storeValues v0 v1 s).bdEp1In = s.bdEp1In ∧
    (storeValues v0 v1 s).ep1Enabled = s.ep1Enabled ∧ (storeValues v0 v1 s).ep1OutDts = s.ep1OutDts ∧
    (storeValues v0 v1 s).ep1InDts = s.ep1InDts ∧ (storeValues v0 v1 s).spiIf = s.spiIf ∧ (storeValues v0 v1
    s).busResetIf = s.busResetIf ∧ (storeValues v0 v1 s).busOtherIf = s.busOtherIf ∧ (storeValues v0 v1
    s).timerIf = s.timerIf ∧ (storeValues v0 v1 s).trnFifo = s.trnFifo ∧ (storeValues v0 v1 s).fatal = s.fatal ∧
    (storeValues v0 v1 s).hostLog = s.hostLog ∧ (storeValues v0 v1 s).inputs = s.inputs := by
  simp [storeValues]

/-- R150. -/
@[simp] theorem displayValues_frame (v0 v1 : StoredValue) (s : State) :
    (displayValues v0 v1 s).cfg = s.cfg ∧ (displayValues v0 v1 s).shRx = s.shRx ∧ (displayValues v0 v1
    s).shRxFull = s.shRxFull ∧ (displayValues v0 v1 s).dpPos = s.dpPos ∧ (displayValues v0 v1 s).keyIe = s.keyIe
    ∧ (displayValues v0 v1 s).keyIf = s.keyIf ∧ (displayValues v0 v1 s).usbAddr = s.usbAddr ∧ (displayValues v0
    v1 s).pendAddr = s.pendAddr ∧ (displayValues v0 v1 s).configured = s.configured ∧ (displayValues v0 v1
    s).ctlDir = s.ctlDir ∧ (displayValues v0 v1 s).ctlSrcTable = s.ctlSrcTable ∧ (displayValues v0 v1
    s).ctlSrcOff = s.ctlSrcOff ∧ (displayValues v0 v1 s).ctlDst = s.ctlDst ∧ (displayValues v0 v1
    s).ctlRemaining = s.ctlRemaining ∧ (displayValues v0 v1 s).ctlToggle = s.ctlToggle ∧ (displayValues v0 v1
    s).ctlZlp = s.ctlZlp ∧ (displayValues v0 v1 s).ctlStatus = s.ctlStatus ∧ (displayValues v0 v1 s).bdEp0Out =
    s.bdEp0Out ∧ (displayValues v0 v1 s).bdEp0In = s.bdEp0In ∧ (displayValues v0 v1 s).bdEp1Out = s.bdEp1Out ∧
    (displayValues v0 v1 s).bdEp1In = s.bdEp1In ∧ (displayValues v0 v1 s).ep1Enabled = s.ep1Enabled ∧
    (displayValues v0 v1 s).ep1OutDts = s.ep1OutDts ∧ (displayValues v0 v1 s).ep1InDts = s.ep1InDts ∧
    (displayValues v0 v1 s).spiIf = s.spiIf ∧ (displayValues v0 v1 s).busResetIf = s.busResetIf ∧ (displayValues
    v0 v1 s).busOtherIf = s.busOtherIf ∧ (displayValues v0 v1 s).timerIf = s.timerIf ∧ (displayValues v0 v1
    s).trnFifo = s.trnFifo ∧ (displayValues v0 v1 s).hostLog = s.hostLog ∧ (displayValues v0 v1 s).inputs =
    s.inputs := by
  simp [displayValues]

/-- R152. -/
@[simp] theorem serviceInterrupt_frame (s : State) :
    (serviceInterrupt s).cfg = s.cfg ∧ (serviceInterrupt s).shRx = s.shRx ∧ (serviceInterrupt s).shRxFull =
    s.shRxFull ∧ (serviceInterrupt s).value0 = s.value0 ∧ (serviceInterrupt s).value1 = s.value1 ∧
    (serviceInterrupt s).dpPos = s.dpPos ∧ (serviceInterrupt s).keyIe = s.keyIe ∧ (serviceInterrupt s).keyIf =
    s.keyIf ∧ (serviceInterrupt s).usbAddr = s.usbAddr ∧ (serviceInterrupt s).pendAddr = s.pendAddr ∧
    (serviceInterrupt s).configured = s.configured ∧ (serviceInterrupt s).ctlDir = s.ctlDir ∧ (serviceInterrupt
    s).ctlSrcTable = s.ctlSrcTable ∧ (serviceInterrupt s).ctlSrcOff = s.ctlSrcOff ∧ (serviceInterrupt s).ctlDst
    = s.ctlDst ∧ (serviceInterrupt s).ctlRemaining = s.ctlRemaining ∧ (serviceInterrupt s).ctlToggle =
    s.ctlToggle ∧ (serviceInterrupt s).ctlZlp = s.ctlZlp ∧ (serviceInterrupt s).ctlStatus = s.ctlStatus ∧
    (serviceInterrupt s).bdEp0Out = s.bdEp0Out ∧ (serviceInterrupt s).bdEp0In = s.bdEp0In ∧ (serviceInterrupt
    s).bdEp1Out = s.bdEp1Out ∧ (serviceInterrupt s).bdEp1In = s.bdEp1In ∧ (serviceInterrupt s).ep1Enabled =
    s.ep1Enabled ∧ (serviceInterrupt s).ep1OutDts = s.ep1OutDts ∧ (serviceInterrupt s).ep1InDts = s.ep1InDts ∧
    (serviceInterrupt s).spiIf = s.spiIf ∧ (serviceInterrupt s).busResetIf = s.busResetIf ∧ (serviceInterrupt
    s).busOtherIf = s.busOtherIf ∧ (serviceInterrupt s).timerIf = s.timerIf ∧ (serviceInterrupt s).trnFifo =
    s.trnFifo ∧ (serviceInterrupt s).hostLog = s.hostLog ∧ (serviceInterrupt s).inputs = s.inputs := by
  simp [serviceInterrupt]

/-- One frame of R94 sent alone. -/
@[simp] theorem sendFrame_frame (buf : Word16) (j : Nat) (w : BitVec 16) (s : State) :
    (sendFrame buf j w s).cfg = s.cfg ∧ (sendFrame buf j w s).shRx = s.shRx ∧ (sendFrame buf j w s).shRxFull =
    s.shRxFull ∧ (sendFrame buf j w s).value0 = s.value0 ∧ (sendFrame buf j w s).value1 = s.value1 ∧ (sendFrame
    buf j w s).dpPos = s.dpPos ∧ (sendFrame buf j w s).keyIe = s.keyIe ∧ (sendFrame buf j w s).keyIf = s.keyIf ∧
    (sendFrame buf j w s).usbAddr = s.usbAddr ∧ (sendFrame buf j w s).pendAddr = s.pendAddr ∧ (sendFrame buf j w
    s).configured = s.configured ∧ (sendFrame buf j w s).ctlDir = s.ctlDir ∧ (sendFrame buf j w s).ctlSrcTable =
    s.ctlSrcTable ∧ (sendFrame buf j w s).ctlSrcOff = s.ctlSrcOff ∧ (sendFrame buf j w s).ctlDst = s.ctlDst ∧
    (sendFrame buf j w s).ctlRemaining = s.ctlRemaining ∧ (sendFrame buf j w s).ctlToggle = s.ctlToggle ∧
    (sendFrame buf j w s).ctlZlp = s.ctlZlp ∧ (sendFrame buf j w s).ctlStatus = s.ctlStatus ∧ (sendFrame buf j w
    s).bdEp0Out = s.bdEp0Out ∧ (sendFrame buf j w s).bdEp0In = s.bdEp0In ∧ (sendFrame buf j w s).bdEp1Out =
    s.bdEp1Out ∧ (sendFrame buf j w s).bdEp1In = s.bdEp1In ∧ (sendFrame buf j w s).ep1Enabled = s.ep1Enabled ∧
    (sendFrame buf j w s).ep1OutDts = s.ep1OutDts ∧ (sendFrame buf j w s).ep1InDts = s.ep1InDts ∧ (sendFrame buf
    j w s).spiIf = s.spiIf ∧ (sendFrame buf j w s).busResetIf = s.busResetIf ∧ (sendFrame buf j w s).busOtherIf
    = s.busOtherIf ∧ (sendFrame buf j w s).timerIf = s.timerIf ∧ (sendFrame buf j w s).trnFifo = s.trnFifo ∧
    (sendFrame buf j w s).hostLog = s.hostLog ∧ (sendFrame buf j w s).inputs = s.inputs := by
  simp [sendFrame]

/-- R227, the report armed. -/
@[simp] theorem armReport_frame (s : State) :
    (armReport s).cfg = s.cfg ∧ (armReport s).spiActive = s.spiActive ∧ (armReport s).spiPtr = s.spiPtr ∧
    (armReport s).spiRemaining = s.spiRemaining ∧ (armReport s).spiCallback = s.spiCallback ∧ (armReport
    s).spiCs = s.spiCs ∧ (armReport s).shBusy = s.shBusy ∧ (armReport s).shTx = s.shTx ∧ (armReport s).shRx =
    s.shRx ∧ (armReport s).shRxFull = s.shRxFull ∧ (armReport s).value0 = s.value0 ∧ (armReport s).value1 =
    s.value1 ∧ (armReport s).dpPos = s.dpPos ∧ (armReport s).keyIe = s.keyIe ∧ (armReport s).keyIf = s.keyIf ∧
    (armReport s).usbAddr = s.usbAddr ∧ (armReport s).pendAddr = s.pendAddr ∧ (armReport s).configured =
    s.configured ∧ (armReport s).ctlDir = s.ctlDir ∧ (armReport s).ctlSrcTable = s.ctlSrcTable ∧ (armReport
    s).ctlSrcOff = s.ctlSrcOff ∧ (armReport s).ctlDst = s.ctlDst ∧ (armReport s).ctlRemaining = s.ctlRemaining ∧
    (armReport s).ctlToggle = s.ctlToggle ∧ (armReport s).ctlZlp = s.ctlZlp ∧ (armReport s).ctlStatus =
    s.ctlStatus ∧ (armReport s).bdEp0Out = s.bdEp0Out ∧ (armReport s).bdEp0In = s.bdEp0In ∧ (armReport
    s).bdEp1Out = s.bdEp1Out ∧ (armReport s).ep1Enabled = s.ep1Enabled ∧ (armReport s).ep1OutDts = s.ep1OutDts ∧
    (armReport s).ep1InDts = s.ep1InDts ∧ (armReport s).spiIf = s.spiIf ∧ (armReport s).busResetIf =
    s.busResetIf ∧ (armReport s).busOtherIf = s.busOtherIf ∧ (armReport s).timerIf = s.timerIf ∧ (armReport
    s).trnFifo = s.trnFifo ∧ (armReport s).fatal = s.fatal ∧ (armReport s).draws = s.draws ∧ (armReport
    s).hostLog = s.hostLog ∧ (armReport s).inputs = s.inputs := by
  simp [armReport]

/-- R227. -/
@[simp] theorem notifyNewValues_frame (s : State) :
    (notifyNewValues s).cfg = s.cfg ∧ (notifyNewValues s).spiActive = s.spiActive ∧ (notifyNewValues s).spiPtr =
    s.spiPtr ∧ (notifyNewValues s).spiRemaining = s.spiRemaining ∧ (notifyNewValues s).spiCallback =
    s.spiCallback ∧ (notifyNewValues s).spiCs = s.spiCs ∧ (notifyNewValues s).shBusy = s.shBusy ∧
    (notifyNewValues s).shTx = s.shTx ∧ (notifyNewValues s).shRx = s.shRx ∧ (notifyNewValues s).shRxFull =
    s.shRxFull ∧ (notifyNewValues s).value0 = s.value0 ∧ (notifyNewValues s).value1 = s.value1 ∧
    (notifyNewValues s).dpPos = s.dpPos ∧ (notifyNewValues s).keyIe = s.keyIe ∧ (notifyNewValues s).keyIf =
    s.keyIf ∧ (notifyNewValues s).usbAddr = s.usbAddr ∧ (notifyNewValues s).pendAddr = s.pendAddr ∧
    (notifyNewValues s).configured = s.configured ∧ (notifyNewValues s).ctlDir = s.ctlDir ∧ (notifyNewValues
    s).ctlSrcTable = s.ctlSrcTable ∧ (notifyNewValues s).ctlSrcOff = s.ctlSrcOff ∧ (notifyNewValues s).ctlDst =
    s.ctlDst ∧ (notifyNewValues s).ctlRemaining = s.ctlRemaining ∧ (notifyNewValues s).ctlToggle = s.ctlToggle ∧
    (notifyNewValues s).ctlZlp = s.ctlZlp ∧ (notifyNewValues s).ctlStatus = s.ctlStatus ∧ (notifyNewValues
    s).bdEp0Out = s.bdEp0Out ∧ (notifyNewValues s).bdEp0In = s.bdEp0In ∧ (notifyNewValues s).bdEp1Out =
    s.bdEp1Out ∧ (notifyNewValues s).ep1Enabled = s.ep1Enabled ∧ (notifyNewValues s).ep1OutDts = s.ep1OutDts ∧
    (notifyNewValues s).ep1InDts = s.ep1InDts ∧ (notifyNewValues s).spiIf = s.spiIf ∧ (notifyNewValues
    s).busResetIf = s.busResetIf ∧ (notifyNewValues s).busOtherIf = s.busOtherIf ∧ (notifyNewValues s).timerIf =
    s.timerIf ∧ (notifyNewValues s).trnFifo = s.trnFifo ∧ (notifyNewValues s).fatal = s.fatal ∧ (notifyNewValues
    s).draws = s.draws ∧ (notifyNewValues s).hostLog = s.hostLog ∧ (notifyNewValues s).inputs = s.inputs := by
  unfold notifyNewValues; (repeat' split) <;> simp

/-- R228. -/
@[simp] theorem ep1Enable_frame (s : State) :
    (ep1Enable s).cfg = s.cfg ∧ (ep1Enable s).shRx = s.shRx ∧ (ep1Enable s).shRxFull = s.shRxFull ∧ (ep1Enable
    s).value0 = s.value0 ∧ (ep1Enable s).value1 = s.value1 ∧ (ep1Enable s).dpPos = s.dpPos ∧ (ep1Enable s).keyIe
    = s.keyIe ∧ (ep1Enable s).keyIf = s.keyIf ∧ (ep1Enable s).usbAddr = s.usbAddr ∧ (ep1Enable s).pendAddr =
    s.pendAddr ∧ (ep1Enable s).configured = s.configured ∧ (ep1Enable s).ctlDir = s.ctlDir ∧ (ep1Enable
    s).ctlSrcTable = s.ctlSrcTable ∧ (ep1Enable s).ctlSrcOff = s.ctlSrcOff ∧ (ep1Enable s).ctlDst = s.ctlDst ∧
    (ep1Enable s).ctlRemaining = s.ctlRemaining ∧ (ep1Enable s).ctlToggle = s.ctlToggle ∧ (ep1Enable s).ctlZlp =
    s.ctlZlp ∧ (ep1Enable s).ctlStatus = s.ctlStatus ∧ (ep1Enable s).bdEp0Out = s.bdEp0Out ∧ (ep1Enable
    s).bdEp0In = s.bdEp0In ∧ (ep1Enable s).bdEp1In = s.bdEp1In ∧ (ep1Enable s).spiIf = s.spiIf ∧ (ep1Enable
    s).busResetIf = s.busResetIf ∧ (ep1Enable s).busOtherIf = s.busOtherIf ∧ (ep1Enable s).timerIf = s.timerIf ∧
    (ep1Enable s).trnFifo = s.trnFifo ∧ (ep1Enable s).hostLog = s.hostLog ∧ (ep1Enable s).inputs = s.inputs := by
  simp [ep1Enable]

/-- R229. -/
@[simp] theorem ep1Disable_frame (s : State) :
    (ep1Disable s).cfg = s.cfg ∧ (ep1Disable s).shRx = s.shRx ∧ (ep1Disable s).shRxFull = s.shRxFull ∧
    (ep1Disable s).value0 = s.value0 ∧ (ep1Disable s).value1 = s.value1 ∧ (ep1Disable s).dpPos = s.dpPos ∧
    (ep1Disable s).keyIf = s.keyIf ∧ (ep1Disable s).usbAddr = s.usbAddr ∧ (ep1Disable s).pendAddr = s.pendAddr ∧
    (ep1Disable s).configured = s.configured ∧ (ep1Disable s).ctlDir = s.ctlDir ∧ (ep1Disable s).ctlSrcTable =
    s.ctlSrcTable ∧ (ep1Disable s).ctlSrcOff = s.ctlSrcOff ∧ (ep1Disable s).ctlDst = s.ctlDst ∧ (ep1Disable
    s).ctlRemaining = s.ctlRemaining ∧ (ep1Disable s).ctlToggle = s.ctlToggle ∧ (ep1Disable s).ctlZlp = s.ctlZlp
    ∧ (ep1Disable s).ctlStatus = s.ctlStatus ∧ (ep1Disable s).bdEp0Out = s.bdEp0Out ∧ (ep1Disable s).bdEp0In =
    s.bdEp0In ∧ (ep1Disable s).ep1OutDts = s.ep1OutDts ∧ (ep1Disable s).ep1InDts = s.ep1InDts ∧ (ep1Disable
    s).spiIf = s.spiIf ∧ (ep1Disable s).busResetIf = s.busResetIf ∧ (ep1Disable s).busOtherIf = s.busOtherIf ∧
    (ep1Disable s).timerIf = s.timerIf ∧ (ep1Disable s).trnFifo = s.trnFifo ∧ (ep1Disable s).hostLog = s.hostLog
    ∧ (ep1Disable s).inputs = s.inputs := by
  simp [ep1Disable]

/-- R226, the re-arm. -/
@[simp] theorem rearmEp1Out_frame (s : State) :
    (rearmEp1Out s).cfg = s.cfg ∧ (rearmEp1Out s).spiActive = s.spiActive ∧ (rearmEp1Out s).spiPtr = s.spiPtr ∧
    (rearmEp1Out s).spiRemaining = s.spiRemaining ∧ (rearmEp1Out s).spiCallback = s.spiCallback ∧ (rearmEp1Out
    s).spiCs = s.spiCs ∧ (rearmEp1Out s).shBusy = s.shBusy ∧ (rearmEp1Out s).shTx = s.shTx ∧ (rearmEp1Out
    s).shRx = s.shRx ∧ (rearmEp1Out s).shRxFull = s.shRxFull ∧ (rearmEp1Out s).value0 = s.value0 ∧ (rearmEp1Out
    s).value1 = s.value1 ∧ (rearmEp1Out s).dpPos = s.dpPos ∧ (rearmEp1Out s).keyIe = s.keyIe ∧ (rearmEp1Out
    s).keyIf = s.keyIf ∧ (rearmEp1Out s).usbAddr = s.usbAddr ∧ (rearmEp1Out s).pendAddr = s.pendAddr ∧
    (rearmEp1Out s).configured = s.configured ∧ (rearmEp1Out s).ctlDir = s.ctlDir ∧ (rearmEp1Out s).ctlSrcTable
    = s.ctlSrcTable ∧ (rearmEp1Out s).ctlSrcOff = s.ctlSrcOff ∧ (rearmEp1Out s).ctlDst = s.ctlDst ∧ (rearmEp1Out
    s).ctlRemaining = s.ctlRemaining ∧ (rearmEp1Out s).ctlToggle = s.ctlToggle ∧ (rearmEp1Out s).ctlZlp =
    s.ctlZlp ∧ (rearmEp1Out s).ctlStatus = s.ctlStatus ∧ (rearmEp1Out s).bdEp0Out = s.bdEp0Out ∧ (rearmEp1Out
    s).bdEp0In = s.bdEp0In ∧ (rearmEp1Out s).bdEp1In = s.bdEp1In ∧ (rearmEp1Out s).ep1Enabled = s.ep1Enabled ∧
    (rearmEp1Out s).ep1InDts = s.ep1InDts ∧ (rearmEp1Out s).spiIf = s.spiIf ∧ (rearmEp1Out s).busResetIf =
    s.busResetIf ∧ (rearmEp1Out s).busOtherIf = s.busOtherIf ∧ (rearmEp1Out s).timerIf = s.timerIf ∧
    (rearmEp1Out s).trnFifo = s.trnFifo ∧ (rearmEp1Out s).fatal = s.fatal ∧ (rearmEp1Out s).ram = s.ram ∧
    (rearmEp1Out s).draws = s.draws ∧ (rearmEp1Out s).hostLog = s.hostLog ∧ (rearmEp1Out s).inputs = s.inputs := by
  simp [rearmEp1Out]

/-- R226. -/
@[simp] theorem onEp1Out_frame (s : State) :
    (onEp1Out s).cfg = s.cfg ∧ (onEp1Out s).shRx = s.shRx ∧ (onEp1Out s).shRxFull = s.shRxFull ∧ (onEp1Out
    s).dpPos = s.dpPos ∧ (onEp1Out s).keyIe = s.keyIe ∧ (onEp1Out s).keyIf = s.keyIf ∧ (onEp1Out s).usbAddr =
    s.usbAddr ∧ (onEp1Out s).pendAddr = s.pendAddr ∧ (onEp1Out s).configured = s.configured ∧ (onEp1Out
    s).ctlDir = s.ctlDir ∧ (onEp1Out s).ctlSrcTable = s.ctlSrcTable ∧ (onEp1Out s).ctlSrcOff = s.ctlSrcOff ∧
    (onEp1Out s).ctlDst = s.ctlDst ∧ (onEp1Out s).ctlRemaining = s.ctlRemaining ∧ (onEp1Out s).ctlToggle =
    s.ctlToggle ∧ (onEp1Out s).ctlZlp = s.ctlZlp ∧ (onEp1Out s).ctlStatus = s.ctlStatus ∧ (onEp1Out s).bdEp0Out
    = s.bdEp0Out ∧ (onEp1Out s).bdEp0In = s.bdEp0In ∧ (onEp1Out s).bdEp1In = s.bdEp1In ∧ (onEp1Out s).ep1Enabled
    = s.ep1Enabled ∧ (onEp1Out s).ep1InDts = s.ep1InDts ∧ (onEp1Out s).spiIf = s.spiIf ∧ (onEp1Out s).busResetIf
    = s.busResetIf ∧ (onEp1Out s).busOtherIf = s.busOtherIf ∧ (onEp1Out s).timerIf = s.timerIf ∧ (onEp1Out
    s).trnFifo = s.trnFifo ∧ (onEp1Out s).hostLog = s.hostLog ∧ (onEp1Out s).inputs = s.inputs := by
  simp only [onEp1Out]; split <;> simp

/-- R230. -/
@[simp] theorem onEp1In_frame (s : State) :
    (onEp1In s).cfg = s.cfg ∧ (onEp1In s).spiActive = s.spiActive ∧ (onEp1In s).spiPtr = s.spiPtr ∧ (onEp1In
    s).spiRemaining = s.spiRemaining ∧ (onEp1In s).spiCallback = s.spiCallback ∧ (onEp1In s).spiCs = s.spiCs ∧
    (onEp1In s).shBusy = s.shBusy ∧ (onEp1In s).shTx = s.shTx ∧ (onEp1In s).shRx = s.shRx ∧ (onEp1In s).shRxFull
    = s.shRxFull ∧ (onEp1In s).value0 = s.value0 ∧ (onEp1In s).value1 = s.value1 ∧ (onEp1In s).dpPos = s.dpPos ∧
    (onEp1In s).keyIe = s.keyIe ∧ (onEp1In s).keyIf = s.keyIf ∧ (onEp1In s).usbAddr = s.usbAddr ∧ (onEp1In
    s).pendAddr = s.pendAddr ∧ (onEp1In s).configured = s.configured ∧ (onEp1In s).ctlDir = s.ctlDir ∧ (onEp1In
    s).ctlSrcTable = s.ctlSrcTable ∧ (onEp1In s).ctlSrcOff = s.ctlSrcOff ∧ (onEp1In s).ctlDst = s.ctlDst ∧
    (onEp1In s).ctlRemaining = s.ctlRemaining ∧ (onEp1In s).ctlToggle = s.ctlToggle ∧ (onEp1In s).ctlZlp =
    s.ctlZlp ∧ (onEp1In s).ctlStatus = s.ctlStatus ∧ (onEp1In s).bdEp0Out = s.bdEp0Out ∧ (onEp1In s).bdEp0In =
    s.bdEp0In ∧ (onEp1In s).bdEp1Out = s.bdEp1Out ∧ (onEp1In s).bdEp1In = s.bdEp1In ∧ (onEp1In s).ep1Enabled =
    s.ep1Enabled ∧ (onEp1In s).ep1OutDts = s.ep1OutDts ∧ (onEp1In s).spiIf = s.spiIf ∧ (onEp1In s).busResetIf =
    s.busResetIf ∧ (onEp1In s).busOtherIf = s.busOtherIf ∧ (onEp1In s).timerIf = s.timerIf ∧ (onEp1In s).trnFifo
    = s.trnFifo ∧ (onEp1In s).fatal = s.fatal ∧ (onEp1In s).faults = s.faults ∧ (onEp1In s).trace = s.trace ∧
    (onEp1In s).ram = s.ram ∧ (onEp1In s).draws = s.draws ∧ (onEp1In s).hostLog = s.hostLog ∧ (onEp1In s).inputs
    = s.inputs := by
  unfold onEp1In; (repeat' split) <;> simp

/-- R153, the swap. -/
@[simp] theorem swapValues_frame (s : State) :
    (swapValues s).cfg = s.cfg ∧ (swapValues s).shRx = s.shRx ∧ (swapValues s).shRxFull = s.shRxFull ∧
    (swapValues s).dpPos = s.dpPos ∧ (swapValues s).keyIe = s.keyIe ∧ (swapValues s).keyIf = s.keyIf ∧
    (swapValues s).usbAddr = s.usbAddr ∧ (swapValues s).pendAddr = s.pendAddr ∧ (swapValues s).configured =
    s.configured ∧ (swapValues s).ctlDir = s.ctlDir ∧ (swapValues s).ctlSrcTable = s.ctlSrcTable ∧ (swapValues
    s).ctlSrcOff = s.ctlSrcOff ∧ (swapValues s).ctlDst = s.ctlDst ∧ (swapValues s).ctlRemaining = s.ctlRemaining
    ∧ (swapValues s).ctlToggle = s.ctlToggle ∧ (swapValues s).ctlZlp = s.ctlZlp ∧ (swapValues s).ctlStatus =
    s.ctlStatus ∧ (swapValues s).bdEp0Out = s.bdEp0Out ∧ (swapValues s).bdEp0In = s.bdEp0In ∧ (swapValues
    s).bdEp1Out = s.bdEp1Out ∧ (swapValues s).ep1Enabled = s.ep1Enabled ∧ (swapValues s).ep1OutDts = s.ep1OutDts
    ∧ (swapValues s).ep1InDts = s.ep1InDts ∧ (swapValues s).spiIf = s.spiIf ∧ (swapValues s).busResetIf =
    s.busResetIf ∧ (swapValues s).busOtherIf = s.busOtherIf ∧ (swapValues s).timerIf = s.timerIf ∧ (swapValues
    s).trnFifo = s.trnFifo ∧ (swapValues s).hostLog = s.hostLog ∧ (swapValues s).inputs = s.inputs := by
  simp [swapValues]

/-- R153. -/
@[simp] theorem keyReadDone_frame (s : State) :
    (keyReadDone s).cfg = s.cfg ∧ (keyReadDone s).shRx = s.shRx ∧ (keyReadDone s).shRxFull = s.shRxFull ∧
    (keyReadDone s).dpPos = s.dpPos ∧ (keyReadDone s).keyIe = s.keyIe ∧ (keyReadDone s).keyIf = s.keyIf ∧
    (keyReadDone s).usbAddr = s.usbAddr ∧ (keyReadDone s).pendAddr = s.pendAddr ∧ (keyReadDone s).configured =
    s.configured ∧ (keyReadDone s).ctlDir = s.ctlDir ∧ (keyReadDone s).ctlSrcTable = s.ctlSrcTable ∧
    (keyReadDone s).ctlSrcOff = s.ctlSrcOff ∧ (keyReadDone s).ctlDst = s.ctlDst ∧ (keyReadDone s).ctlRemaining =
    s.ctlRemaining ∧ (keyReadDone s).ctlToggle = s.ctlToggle ∧ (keyReadDone s).ctlZlp = s.ctlZlp ∧ (keyReadDone
    s).ctlStatus = s.ctlStatus ∧ (keyReadDone s).bdEp0Out = s.bdEp0Out ∧ (keyReadDone s).bdEp0In = s.bdEp0In ∧
    (keyReadDone s).bdEp1Out = s.bdEp1Out ∧ (keyReadDone s).ep1Enabled = s.ep1Enabled ∧ (keyReadDone
    s).ep1OutDts = s.ep1OutDts ∧ (keyReadDone s).ep1InDts = s.ep1InDts ∧ (keyReadDone s).spiIf = s.spiIf ∧
    (keyReadDone s).busResetIf = s.busResetIf ∧ (keyReadDone s).busOtherIf = s.busOtherIf ∧ (keyReadDone
    s).timerIf = s.timerIf ∧ (keyReadDone s).trnFifo = s.trnFifo ∧ (keyReadDone s).hostLog = s.hostLog ∧
    (keyReadDone s).inputs = s.inputs := by
  simp only [keyReadDone]; split <;> simp

/-- R122. -/
@[simp] theorem invokeCallback_frame (cb : Callback) (s : State) :
    (invokeCallback cb s).cfg = s.cfg ∧ (invokeCallback cb s).shRx = s.shRx ∧ (invokeCallback cb s).shRxFull =
    s.shRxFull ∧ (invokeCallback cb s).dpPos = s.dpPos ∧ (invokeCallback cb s).keyIf = s.keyIf ∧ (invokeCallback
    cb s).usbAddr = s.usbAddr ∧ (invokeCallback cb s).pendAddr = s.pendAddr ∧ (invokeCallback cb s).configured =
    s.configured ∧ (invokeCallback cb s).ctlDir = s.ctlDir ∧ (invokeCallback cb s).ctlSrcTable = s.ctlSrcTable ∧
    (invokeCallback cb s).ctlSrcOff = s.ctlSrcOff ∧ (invokeCallback cb s).ctlDst = s.ctlDst ∧ (invokeCallback cb
    s).ctlRemaining = s.ctlRemaining ∧ (invokeCallback cb s).ctlToggle = s.ctlToggle ∧ (invokeCallback cb
    s).ctlZlp = s.ctlZlp ∧ (invokeCallback cb s).ctlStatus = s.ctlStatus ∧ (invokeCallback cb s).bdEp0Out =
    s.bdEp0Out ∧ (invokeCallback cb s).bdEp0In = s.bdEp0In ∧ (invokeCallback cb s).bdEp1Out = s.bdEp1Out ∧
    (invokeCallback cb s).ep1Enabled = s.ep1Enabled ∧ (invokeCallback cb s).ep1OutDts = s.ep1OutDts ∧
    (invokeCallback cb s).ep1InDts = s.ep1InDts ∧ (invokeCallback cb s).spiIf = s.spiIf ∧ (invokeCallback cb
    s).busResetIf = s.busResetIf ∧ (invokeCallback cb s).busOtherIf = s.busOtherIf ∧ (invokeCallback cb
    s).timerIf = s.timerIf ∧ (invokeCallback cb s).trnFifo = s.trnFifo ∧ (invokeCallback cb s).hostLog =
    s.hostLog ∧ (invokeCallback cb s).inputs = s.inputs := by
  cases cb <;> simp [invokeCallback]

/-- R121, the received byte stored. -/
@[simp] theorem storeReceived_frame (s : State) :
    (storeReceived s).cfg = s.cfg ∧ (storeReceived s).spiActive = s.spiActive ∧ (storeReceived s).spiCallback =
    s.spiCallback ∧ (storeReceived s).spiCs = s.spiCs ∧ (storeReceived s).shBusy = s.shBusy ∧ (storeReceived
    s).shTx = s.shTx ∧ (storeReceived s).shRx = s.shRx ∧ (storeReceived s).value0 = s.value0 ∧ (storeReceived
    s).value1 = s.value1 ∧ (storeReceived s).dpPos = s.dpPos ∧ (storeReceived s).keyIe = s.keyIe ∧
    (storeReceived s).keyIf = s.keyIf ∧ (storeReceived s).usbAddr = s.usbAddr ∧ (storeReceived s).pendAddr =
    s.pendAddr ∧ (storeReceived s).configured = s.configured ∧ (storeReceived s).ctlDir = s.ctlDir ∧
    (storeReceived s).ctlSrcTable = s.ctlSrcTable ∧ (storeReceived s).ctlSrcOff = s.ctlSrcOff ∧ (storeReceived
    s).ctlDst = s.ctlDst ∧ (storeReceived s).ctlRemaining = s.ctlRemaining ∧ (storeReceived s).ctlToggle =
    s.ctlToggle ∧ (storeReceived s).ctlZlp = s.ctlZlp ∧ (storeReceived s).ctlStatus = s.ctlStatus ∧
    (storeReceived s).bdEp0Out = s.bdEp0Out ∧ (storeReceived s).bdEp0In = s.bdEp0In ∧ (storeReceived s).bdEp1Out
    = s.bdEp1Out ∧ (storeReceived s).bdEp1In = s.bdEp1In ∧ (storeReceived s).ep1Enabled = s.ep1Enabled ∧
    (storeReceived s).ep1OutDts = s.ep1OutDts ∧ (storeReceived s).ep1InDts = s.ep1InDts ∧ (storeReceived
    s).spiIf = s.spiIf ∧ (storeReceived s).busResetIf = s.busResetIf ∧ (storeReceived s).busOtherIf =
    s.busOtherIf ∧ (storeReceived s).timerIf = s.timerIf ∧ (storeReceived s).trnFifo = s.trnFifo ∧
    (storeReceived s).fatal = s.fatal ∧ (storeReceived s).draws = s.draws ∧ (storeReceived s).hostLog =
    s.hostLog ∧ (storeReceived s).inputs = s.inputs := by
  simp [storeReceived]

/-- R121, the next byte. -/
@[simp] theorem continueExchange_frame (s : State) :
    (continueExchange s).cfg = s.cfg ∧ (continueExchange s).spiActive = s.spiActive ∧ (continueExchange
    s).spiPtr = s.spiPtr ∧ (continueExchange s).spiRemaining = s.spiRemaining ∧ (continueExchange s).spiCallback
    = s.spiCallback ∧ (continueExchange s).shRx = s.shRx ∧ (continueExchange s).shRxFull = s.shRxFull ∧
    (continueExchange s).value0 = s.value0 ∧ (continueExchange s).value1 = s.value1 ∧ (continueExchange s).dpPos
    = s.dpPos ∧ (continueExchange s).keyIe = s.keyIe ∧ (continueExchange s).keyIf = s.keyIf ∧ (continueExchange
    s).usbAddr = s.usbAddr ∧ (continueExchange s).pendAddr = s.pendAddr ∧ (continueExchange s).configured =
    s.configured ∧ (continueExchange s).ctlDir = s.ctlDir ∧ (continueExchange s).ctlSrcTable = s.ctlSrcTable ∧
    (continueExchange s).ctlSrcOff = s.ctlSrcOff ∧ (continueExchange s).ctlDst = s.ctlDst ∧ (continueExchange
    s).ctlRemaining = s.ctlRemaining ∧ (continueExchange s).ctlToggle = s.ctlToggle ∧ (continueExchange
    s).ctlZlp = s.ctlZlp ∧ (continueExchange s).ctlStatus = s.ctlStatus ∧ (continueExchange s).bdEp0Out =
    s.bdEp0Out ∧ (continueExchange s).bdEp0In = s.bdEp0In ∧ (continueExchange s).bdEp1Out = s.bdEp1Out ∧
    (continueExchange s).bdEp1In = s.bdEp1In ∧ (continueExchange s).ep1Enabled = s.ep1Enabled ∧
    (continueExchange s).ep1OutDts = s.ep1OutDts ∧ (continueExchange s).ep1InDts = s.ep1InDts ∧
    (continueExchange s).spiIf = s.spiIf ∧ (continueExchange s).busResetIf = s.busResetIf ∧ (continueExchange
    s).busOtherIf = s.busOtherIf ∧ (continueExchange s).timerIf = s.timerIf ∧ (continueExchange s).trnFifo =
    s.trnFifo ∧ (continueExchange s).fatal = s.fatal ∧ (continueExchange s).ram = s.ram ∧ (continueExchange
    s).hostLog = s.hostLog ∧ (continueExchange s).inputs = s.inputs := by
  simp only [continueExchange]; split <;> simp

/-- R121, the end. -/
@[simp] theorem endExchange_frame (s : State) :
    (endExchange s).cfg = s.cfg ∧ (endExchange s).shRx = s.shRx ∧ (endExchange s).shRxFull = s.shRxFull ∧
    (endExchange s).dpPos = s.dpPos ∧ (endExchange s).keyIf = s.keyIf ∧ (endExchange s).usbAddr = s.usbAddr ∧
    (endExchange s).pendAddr = s.pendAddr ∧ (endExchange s).configured = s.configured ∧ (endExchange s).ctlDir =
    s.ctlDir ∧ (endExchange s).ctlSrcTable = s.ctlSrcTable ∧ (endExchange s).ctlSrcOff = s.ctlSrcOff ∧
    (endExchange s).ctlDst = s.ctlDst ∧ (endExchange s).ctlRemaining = s.ctlRemaining ∧ (endExchange
    s).ctlToggle = s.ctlToggle ∧ (endExchange s).ctlZlp = s.ctlZlp ∧ (endExchange s).ctlStatus = s.ctlStatus ∧
    (endExchange s).bdEp0Out = s.bdEp0Out ∧ (endExchange s).bdEp0In = s.bdEp0In ∧ (endExchange s).bdEp1Out =
    s.bdEp1Out ∧ (endExchange s).ep1Enabled = s.ep1Enabled ∧ (endExchange s).ep1OutDts = s.ep1OutDts ∧
    (endExchange s).ep1InDts = s.ep1InDts ∧ (endExchange s).spiIf = s.spiIf ∧ (endExchange s).busResetIf =
    s.busResetIf ∧ (endExchange s).busOtherIf = s.busOtherIf ∧ (endExchange s).timerIf = s.timerIf ∧
    (endExchange s).trnFifo = s.trnFifo ∧ (endExchange s).hostLog = s.hostLog ∧ (endExchange s).inputs =
    s.inputs := by
  simp [endExchange]

/-- R121. -/
@[simp] theorem byteComplete_frame (s : State) :
    (byteComplete s).cfg = s.cfg ∧ (byteComplete s).shRx = s.shRx ∧ (byteComplete s).dpPos = s.dpPos ∧
    (byteComplete s).keyIf = s.keyIf ∧ (byteComplete s).usbAddr = s.usbAddr ∧ (byteComplete s).pendAddr =
    s.pendAddr ∧ (byteComplete s).configured = s.configured ∧ (byteComplete s).ctlDir = s.ctlDir ∧ (byteComplete
    s).ctlSrcTable = s.ctlSrcTable ∧ (byteComplete s).ctlSrcOff = s.ctlSrcOff ∧ (byteComplete s).ctlDst =
    s.ctlDst ∧ (byteComplete s).ctlRemaining = s.ctlRemaining ∧ (byteComplete s).ctlToggle = s.ctlToggle ∧
    (byteComplete s).ctlZlp = s.ctlZlp ∧ (byteComplete s).ctlStatus = s.ctlStatus ∧ (byteComplete s).bdEp0Out =
    s.bdEp0Out ∧ (byteComplete s).bdEp0In = s.bdEp0In ∧ (byteComplete s).bdEp1Out = s.bdEp1Out ∧ (byteComplete
    s).ep1Enabled = s.ep1Enabled ∧ (byteComplete s).ep1OutDts = s.ep1OutDts ∧ (byteComplete s).ep1InDts =
    s.ep1InDts ∧ (byteComplete s).spiIf = s.spiIf ∧ (byteComplete s).busResetIf = s.busResetIf ∧ (byteComplete
    s).busOtherIf = s.busOtherIf ∧ (byteComplete s).timerIf = s.timerIf ∧ (byteComplete s).trnFifo = s.trnFifo ∧
    (byteComplete s).hostLog = s.hostLog ∧ (byteComplete s).inputs = s.inputs := by
  unfold byteComplete; (repeat' split) <;> simp

/-- R171, R34. -/
@[simp] theorem cancelTransfer_frame (s : State) :
    (cancelTransfer s).cfg = s.cfg ∧ (cancelTransfer s).spiActive = s.spiActive ∧ (cancelTransfer s).spiPtr =
    s.spiPtr ∧ (cancelTransfer s).spiRemaining = s.spiRemaining ∧ (cancelTransfer s).spiCallback = s.spiCallback
    ∧ (cancelTransfer s).spiCs = s.spiCs ∧ (cancelTransfer s).shBusy = s.shBusy ∧ (cancelTransfer s).shTx =
    s.shTx ∧ (cancelTransfer s).shRx = s.shRx ∧ (cancelTransfer s).shRxFull = s.shRxFull ∧ (cancelTransfer
    s).value0 = s.value0 ∧ (cancelTransfer s).value1 = s.value1 ∧ (cancelTransfer s).dpPos = s.dpPos ∧
    (cancelTransfer s).keyIe = s.keyIe ∧ (cancelTransfer s).keyIf = s.keyIf ∧ (cancelTransfer s).usbAddr =
    s.usbAddr ∧ (cancelTransfer s).configured = s.configured ∧ (cancelTransfer s).bdEp0Out = s.bdEp0Out ∧
    (cancelTransfer s).bdEp1Out = s.bdEp1Out ∧ (cancelTransfer s).bdEp1In = s.bdEp1In ∧ (cancelTransfer
    s).ep1Enabled = s.ep1Enabled ∧ (cancelTransfer s).ep1OutDts = s.ep1OutDts ∧ (cancelTransfer s).ep1InDts =
    s.ep1InDts ∧ (cancelTransfer s).spiIf = s.spiIf ∧ (cancelTransfer s).busResetIf = s.busResetIf ∧
    (cancelTransfer s).busOtherIf = s.busOtherIf ∧ (cancelTransfer s).timerIf = s.timerIf ∧ (cancelTransfer
    s).trnFifo = s.trnFifo ∧ (cancelTransfer s).fatal = s.fatal ∧ (cancelTransfer s).faults = s.faults ∧
    (cancelTransfer s).ram = s.ram ∧ (cancelTransfer s).draws = s.draws ∧ (cancelTransfer s).hostLog = s.hostLog
    ∧ (cancelTransfer s).inputs = s.inputs := by
  simp only [cancelTransfer]; split <;> simp

/-- R198. -/
@[simp] theorem armEp0Out_frame (s : State) :
    (armEp0Out s).cfg = s.cfg ∧ (armEp0Out s).spiActive = s.spiActive ∧ (armEp0Out s).spiPtr = s.spiPtr ∧
    (armEp0Out s).spiRemaining = s.spiRemaining ∧ (armEp0Out s).spiCallback = s.spiCallback ∧ (armEp0Out
    s).spiCs = s.spiCs ∧ (armEp0Out s).shBusy = s.shBusy ∧ (armEp0Out s).shTx = s.shTx ∧ (armEp0Out s).shRx =
    s.shRx ∧ (armEp0Out s).shRxFull = s.shRxFull ∧ (armEp0Out s).value0 = s.value0 ∧ (armEp0Out s).value1 =
    s.value1 ∧ (armEp0Out s).dpPos = s.dpPos ∧ (armEp0Out s).keyIe = s.keyIe ∧ (armEp0Out s).keyIf = s.keyIf ∧
    (armEp0Out s).usbAddr = s.usbAddr ∧ (armEp0Out s).pendAddr = s.pendAddr ∧ (armEp0Out s).configured =
    s.configured ∧ (armEp0Out s).ctlDir = s.ctlDir ∧ (armEp0Out s).ctlSrcTable = s.ctlSrcTable ∧ (armEp0Out
    s).ctlSrcOff = s.ctlSrcOff ∧ (armEp0Out s).ctlDst = s.ctlDst ∧ (armEp0Out s).ctlRemaining = s.ctlRemaining ∧
    (armEp0Out s).ctlToggle = s.ctlToggle ∧ (armEp0Out s).ctlZlp = s.ctlZlp ∧ (armEp0Out s).ctlStatus =
    s.ctlStatus ∧ (armEp0Out s).bdEp0In = s.bdEp0In ∧ (armEp0Out s).bdEp1Out = s.bdEp1Out ∧ (armEp0Out
    s).bdEp1In = s.bdEp1In ∧ (armEp0Out s).ep1Enabled = s.ep1Enabled ∧ (armEp0Out s).ep1OutDts = s.ep1OutDts ∧
    (armEp0Out s).ep1InDts = s.ep1InDts ∧ (armEp0Out s).spiIf = s.spiIf ∧ (armEp0Out s).busResetIf =
    s.busResetIf ∧ (armEp0Out s).busOtherIf = s.busOtherIf ∧ (armEp0Out s).timerIf = s.timerIf ∧ (armEp0Out
    s).trnFifo = s.trnFifo ∧ (armEp0Out s).fatal = s.fatal ∧ (armEp0Out s).ram = s.ram ∧ (armEp0Out s).draws =
    s.draws ∧ (armEp0Out s).hostLog = s.hostLog ∧ (armEp0Out s).inputs = s.inputs := by
  simp [armEp0Out]

/-- R179. -/
@[simp] theorem statusIn_frame (s : State) :
    (statusIn s).cfg = s.cfg ∧ (statusIn s).spiActive = s.spiActive ∧ (statusIn s).spiPtr = s.spiPtr ∧ (statusIn
    s).spiRemaining = s.spiRemaining ∧ (statusIn s).spiCallback = s.spiCallback ∧ (statusIn s).spiCs = s.spiCs ∧
    (statusIn s).shBusy = s.shBusy ∧ (statusIn s).shTx = s.shTx ∧ (statusIn s).shRx = s.shRx ∧ (statusIn
    s).shRxFull = s.shRxFull ∧ (statusIn s).value0 = s.value0 ∧ (statusIn s).value1 = s.value1 ∧ (statusIn
    s).dpPos = s.dpPos ∧ (statusIn s).keyIe = s.keyIe ∧ (statusIn s).keyIf = s.keyIf ∧ (statusIn s).usbAddr =
    s.usbAddr ∧ (statusIn s).pendAddr = s.pendAddr ∧ (statusIn s).configured = s.configured ∧ (statusIn
    s).ctlDir = s.ctlDir ∧ (statusIn s).ctlSrcTable = s.ctlSrcTable ∧ (statusIn s).ctlSrcOff = s.ctlSrcOff ∧
    (statusIn s).ctlDst = s.ctlDst ∧ (statusIn s).ctlRemaining = s.ctlRemaining ∧ (statusIn s).ctlToggle =
    s.ctlToggle ∧ (statusIn s).ctlZlp = s.ctlZlp ∧ (statusIn s).bdEp0Out = s.bdEp0Out ∧ (statusIn s).bdEp1Out =
    s.bdEp1Out ∧ (statusIn s).bdEp1In = s.bdEp1In ∧ (statusIn s).ep1Enabled = s.ep1Enabled ∧ (statusIn
    s).ep1OutDts = s.ep1OutDts ∧ (statusIn s).ep1InDts = s.ep1InDts ∧ (statusIn s).spiIf = s.spiIf ∧ (statusIn
    s).busResetIf = s.busResetIf ∧ (statusIn s).busOtherIf = s.busOtherIf ∧ (statusIn s).timerIf = s.timerIf ∧
    (statusIn s).trnFifo = s.trnFifo ∧ (statusIn s).fatal = s.fatal ∧ (statusIn s).ram = s.ram ∧ (statusIn
    s).draws = s.draws ∧ (statusIn s).hostLog = s.hostLog ∧ (statusIn s).inputs = s.inputs := by
  simp [statusIn]

/-- R192. -/
@[simp] theorem rejectRequest_frame (c : FatalCause) (s : State) :
    (rejectRequest c s).cfg = s.cfg ∧ (rejectRequest c s).spiActive = s.spiActive ∧ (rejectRequest c s).spiPtr =
    s.spiPtr ∧ (rejectRequest c s).spiRemaining = s.spiRemaining ∧ (rejectRequest c s).spiCallback =
    s.spiCallback ∧ (rejectRequest c s).spiCs = s.spiCs ∧ (rejectRequest c s).shBusy = s.shBusy ∧ (rejectRequest
    c s).shTx = s.shTx ∧ (rejectRequest c s).shRx = s.shRx ∧ (rejectRequest c s).shRxFull = s.shRxFull ∧
    (rejectRequest c s).value0 = s.value0 ∧ (rejectRequest c s).value1 = s.value1 ∧ (rejectRequest c s).dpPos =
    s.dpPos ∧ (rejectRequest c s).keyIe = s.keyIe ∧ (rejectRequest c s).keyIf = s.keyIf ∧ (rejectRequest c
    s).usbAddr = s.usbAddr ∧ (rejectRequest c s).pendAddr = s.pendAddr ∧ (rejectRequest c s).configured =
    s.configured ∧ (rejectRequest c s).ctlDir = s.ctlDir ∧ (rejectRequest c s).ctlSrcTable = s.ctlSrcTable ∧
    (rejectRequest c s).ctlSrcOff = s.ctlSrcOff ∧ (rejectRequest c s).ctlDst = s.ctlDst ∧ (rejectRequest c
    s).ctlRemaining = s.ctlRemaining ∧ (rejectRequest c s).ctlToggle = s.ctlToggle ∧ (rejectRequest c s).ctlZlp
    = s.ctlZlp ∧ (rejectRequest c s).ctlStatus = s.ctlStatus ∧ (rejectRequest c s).bdEp0Out = s.bdEp0Out ∧
    (rejectRequest c s).bdEp1Out = s.bdEp1Out ∧ (rejectRequest c s).bdEp1In = s.bdEp1In ∧ (rejectRequest c
    s).ep1Enabled = s.ep1Enabled ∧ (rejectRequest c s).ep1OutDts = s.ep1OutDts ∧ (rejectRequest c s).ep1InDts =
    s.ep1InDts ∧ (rejectRequest c s).spiIf = s.spiIf ∧ (rejectRequest c s).busResetIf = s.busResetIf ∧
    (rejectRequest c s).busOtherIf = s.busOtherIf ∧ (rejectRequest c s).timerIf = s.timerIf ∧ (rejectRequest c
    s).trnFifo = s.trnFifo ∧ (rejectRequest c s).ram = s.ram ∧ (rejectRequest c s).draws = s.draws ∧
    (rejectRequest c s).hostLog = s.hostLog ∧ (rejectRequest c s).inputs = s.inputs := by
  simp [rejectRequest]

/-- R193, a chunk armed. -/
@[simp] theorem armChunk_frame (bytes : List Byte) (s : State) :
    (armChunk bytes s).cfg = s.cfg ∧ (armChunk bytes s).spiActive = s.spiActive ∧ (armChunk bytes s).spiPtr =
    s.spiPtr ∧ (armChunk bytes s).spiRemaining = s.spiRemaining ∧ (armChunk bytes s).spiCallback = s.spiCallback
    ∧ (armChunk bytes s).spiCs = s.spiCs ∧ (armChunk bytes s).shBusy = s.shBusy ∧ (armChunk bytes s).shTx =
    s.shTx ∧ (armChunk bytes s).shRx = s.shRx ∧ (armChunk bytes s).shRxFull = s.shRxFull ∧ (armChunk bytes
    s).value0 = s.value0 ∧ (armChunk bytes s).value1 = s.value1 ∧ (armChunk bytes s).dpPos = s.dpPos ∧ (armChunk
    bytes s).keyIe = s.keyIe ∧ (armChunk bytes s).keyIf = s.keyIf ∧ (armChunk bytes s).usbAddr = s.usbAddr ∧
    (armChunk bytes s).pendAddr = s.pendAddr ∧ (armChunk bytes s).configured = s.configured ∧ (armChunk bytes
    s).ctlDir = s.ctlDir ∧ (armChunk bytes s).ctlSrcTable = s.ctlSrcTable ∧ (armChunk bytes s).ctlDst = s.ctlDst
    ∧ (armChunk bytes s).ctlZlp = s.ctlZlp ∧ (armChunk bytes s).ctlStatus = s.ctlStatus ∧ (armChunk bytes
    s).bdEp0Out = s.bdEp0Out ∧ (armChunk bytes s).bdEp1Out = s.bdEp1Out ∧ (armChunk bytes s).bdEp1In = s.bdEp1In
    ∧ (armChunk bytes s).ep1Enabled = s.ep1Enabled ∧ (armChunk bytes s).ep1OutDts = s.ep1OutDts ∧ (armChunk
    bytes s).ep1InDts = s.ep1InDts ∧ (armChunk bytes s).spiIf = s.spiIf ∧ (armChunk bytes s).busResetIf =
    s.busResetIf ∧ (armChunk bytes s).busOtherIf = s.busOtherIf ∧ (armChunk bytes s).timerIf = s.timerIf ∧
    (armChunk bytes s).trnFifo = s.trnFifo ∧ (armChunk bytes s).fatal = s.fatal ∧ (armChunk bytes s).draws =
    s.draws ∧ (armChunk bytes s).hostLog = s.hostLog ∧ (armChunk bytes s).inputs = s.inputs := by
  simp [armChunk]

/-- R195, the sink. -/
@[simp] theorem setReportSink_frame (m : Word16) (s : State) :
    (setReportSink m s).cfg = s.cfg ∧ (setReportSink m s).shRx = s.shRx ∧ (setReportSink m s).shRxFull =
    s.shRxFull ∧ (setReportSink m s).dpPos = s.dpPos ∧ (setReportSink m s).keyIe = s.keyIe ∧ (setReportSink m
    s).keyIf = s.keyIf ∧ (setReportSink m s).usbAddr = s.usbAddr ∧ (setReportSink m s).pendAddr = s.pendAddr ∧
    (setReportSink m s).configured = s.configured ∧ (setReportSink m s).ctlDir = s.ctlDir ∧ (setReportSink m
    s).ctlSrcTable = s.ctlSrcTable ∧ (setReportSink m s).ctlSrcOff = s.ctlSrcOff ∧ (setReportSink m s).ctlDst =
    s.ctlDst ∧ (setReportSink m s).ctlRemaining = s.ctlRemaining ∧ (setReportSink m s).ctlToggle = s.ctlToggle ∧
    (setReportSink m s).ctlZlp = s.ctlZlp ∧ (setReportSink m s).ctlStatus = s.ctlStatus ∧ (setReportSink m
    s).bdEp0Out = s.bdEp0Out ∧ (setReportSink m s).bdEp0In = s.bdEp0In ∧ (setReportSink m s).bdEp1Out =
    s.bdEp1Out ∧ (setReportSink m s).bdEp1In = s.bdEp1In ∧ (setReportSink m s).ep1Enabled = s.ep1Enabled ∧
    (setReportSink m s).ep1OutDts = s.ep1OutDts ∧ (setReportSink m s).ep1InDts = s.ep1InDts ∧ (setReportSink m
    s).spiIf = s.spiIf ∧ (setReportSink m s).busResetIf = s.busResetIf ∧ (setReportSink m s).busOtherIf =
    s.busOtherIf ∧ (setReportSink m s).timerIf = s.timerIf ∧ (setReportSink m s).trnFifo = s.trnFifo ∧
    (setReportSink m s).hostLog = s.hostLog ∧ (setReportSink m s).inputs = s.inputs := by
  unfold setReportSink; split
  · simp
  · split <;> simp

/-- R195, the bookkeeping. -/
@[simp] theorem finishWriteData_frame (c n : Nat) (s : State) :
    (finishWriteData c n s).cfg = s.cfg ∧ (finishWriteData c n s).shRx = s.shRx ∧ (finishWriteData c n
    s).shRxFull = s.shRxFull ∧ (finishWriteData c n s).dpPos = s.dpPos ∧ (finishWriteData c n s).keyIe = s.keyIe
    ∧ (finishWriteData c n s).keyIf = s.keyIf ∧ (finishWriteData c n s).usbAddr = s.usbAddr ∧ (finishWriteData c
    n s).pendAddr = s.pendAddr ∧ (finishWriteData c n s).configured = s.configured ∧ (finishWriteData c n
    s).ctlSrcTable = s.ctlSrcTable ∧ (finishWriteData c n s).ctlSrcOff = s.ctlSrcOff ∧ (finishWriteData c n
    s).ctlZlp = s.ctlZlp ∧ (finishWriteData c n s).bdEp0Out = s.bdEp0Out ∧ (finishWriteData c n s).bdEp1Out =
    s.bdEp1Out ∧ (finishWriteData c n s).bdEp1In = s.bdEp1In ∧ (finishWriteData c n s).ep1Enabled = s.ep1Enabled
    ∧ (finishWriteData c n s).ep1OutDts = s.ep1OutDts ∧ (finishWriteData c n s).ep1InDts = s.ep1InDts ∧
    (finishWriteData c n s).spiIf = s.spiIf ∧ (finishWriteData c n s).busResetIf = s.busResetIf ∧
    (finishWriteData c n s).busOtherIf = s.busOtherIf ∧ (finishWriteData c n s).timerIf = s.timerIf ∧
    (finishWriteData c n s).trnFifo = s.trnFifo ∧ (finishWriteData c n s).hostLog = s.hostLog ∧ (finishWriteData
    c n s).inputs = s.inputs := by
  simp only [finishWriteData]; split <;> simp

/-- R196, R186. -/
@[simp] theorem applyAddress_frame (s : State) :
    (applyAddress s).cfg = s.cfg ∧ (applyAddress s).spiActive = s.spiActive ∧ (applyAddress s).spiPtr = s.spiPtr
    ∧ (applyAddress s).spiRemaining = s.spiRemaining ∧ (applyAddress s).spiCallback = s.spiCallback ∧
    (applyAddress s).spiCs = s.spiCs ∧ (applyAddress s).shBusy = s.shBusy ∧ (applyAddress s).shTx = s.shTx ∧
    (applyAddress s).shRx = s.shRx ∧ (applyAddress s).shRxFull = s.shRxFull ∧ (applyAddress s).value0 = s.value0
    ∧ (applyAddress s).value1 = s.value1 ∧ (applyAddress s).dpPos = s.dpPos ∧ (applyAddress s).keyIe = s.keyIe ∧
    (applyAddress s).keyIf = s.keyIf ∧ (applyAddress s).configured = s.configured ∧ (applyAddress s).ctlDir =
    s.ctlDir ∧ (applyAddress s).ctlSrcTable = s.ctlSrcTable ∧ (applyAddress s).ctlSrcOff = s.ctlSrcOff ∧
    (applyAddress s).ctlDst = s.ctlDst ∧ (applyAddress s).ctlRemaining = s.ctlRemaining ∧ (applyAddress
    s).ctlToggle = s.ctlToggle ∧ (applyAddress s).ctlZlp = s.ctlZlp ∧ (applyAddress s).ctlStatus = s.ctlStatus ∧
    (applyAddress s).bdEp0Out = s.bdEp0Out ∧ (applyAddress s).bdEp0In = s.bdEp0In ∧ (applyAddress s).bdEp1Out =
    s.bdEp1Out ∧ (applyAddress s).bdEp1In = s.bdEp1In ∧ (applyAddress s).ep1Enabled = s.ep1Enabled ∧
    (applyAddress s).ep1OutDts = s.ep1OutDts ∧ (applyAddress s).ep1InDts = s.ep1InDts ∧ (applyAddress s).spiIf =
    s.spiIf ∧ (applyAddress s).busResetIf = s.busResetIf ∧ (applyAddress s).busOtherIf = s.busOtherIf ∧
    (applyAddress s).timerIf = s.timerIf ∧ (applyAddress s).trnFifo = s.trnFifo ∧ (applyAddress s).fatal =
    s.fatal ∧ (applyAddress s).faults = s.faults ∧ (applyAddress s).ram = s.ram ∧ (applyAddress s).draws =
    s.draws ∧ (applyAddress s).hostLog = s.hostLog ∧ (applyAddress s).inputs = s.inputs := by
  unfold applyAddress; (repeat' split) <;> simp

/-- R197, the end of a read. -/
@[simp] theorem endRead_frame (s : State) :
    (endRead s).cfg = s.cfg ∧ (endRead s).spiActive = s.spiActive ∧ (endRead s).spiPtr = s.spiPtr ∧ (endRead
    s).spiRemaining = s.spiRemaining ∧ (endRead s).spiCallback = s.spiCallback ∧ (endRead s).spiCs = s.spiCs ∧
    (endRead s).shBusy = s.shBusy ∧ (endRead s).shTx = s.shTx ∧ (endRead s).shRx = s.shRx ∧ (endRead s).shRxFull
    = s.shRxFull ∧ (endRead s).value0 = s.value0 ∧ (endRead s).value1 = s.value1 ∧ (endRead s).dpPos = s.dpPos ∧
    (endRead s).keyIe = s.keyIe ∧ (endRead s).keyIf = s.keyIf ∧ (endRead s).usbAddr = s.usbAddr ∧ (endRead
    s).pendAddr = s.pendAddr ∧ (endRead s).configured = s.configured ∧ (endRead s).ctlSrcTable = s.ctlSrcTable ∧
    (endRead s).ctlSrcOff = s.ctlSrcOff ∧ (endRead s).ctlDst = s.ctlDst ∧ (endRead s).ctlRemaining =
    s.ctlRemaining ∧ (endRead s).ctlToggle = s.ctlToggle ∧ (endRead s).bdEp0Out = s.bdEp0Out ∧ (endRead
    s).bdEp1Out = s.bdEp1Out ∧ (endRead s).bdEp1In = s.bdEp1In ∧ (endRead s).ep1Enabled = s.ep1Enabled ∧
    (endRead s).ep1OutDts = s.ep1OutDts ∧ (endRead s).ep1InDts = s.ep1InDts ∧ (endRead s).spiIf = s.spiIf ∧
    (endRead s).busResetIf = s.busResetIf ∧ (endRead s).busOtherIf = s.busOtherIf ∧ (endRead s).timerIf =
    s.timerIf ∧ (endRead s).trnFifo = s.trnFifo ∧ (endRead s).fatal = s.fatal ∧ (endRead s).faults = s.faults ∧
    (endRead s).ram = s.ram ∧ (endRead s).draws = s.draws ∧ (endRead s).hostLog = s.hostLog ∧ (endRead s).inputs
    = s.inputs := by
  simp [endRead]

/-- R183. -/
@[simp] theorem getDescQualifier_frame (s : State) :
    (getDescQualifier s).cfg = s.cfg ∧ (getDescQualifier s).spiActive = s.spiActive ∧ (getDescQualifier
    s).spiPtr = s.spiPtr ∧ (getDescQualifier s).spiRemaining = s.spiRemaining ∧ (getDescQualifier s).spiCallback
    = s.spiCallback ∧ (getDescQualifier s).spiCs = s.spiCs ∧ (getDescQualifier s).shBusy = s.shBusy ∧
    (getDescQualifier s).shTx = s.shTx ∧ (getDescQualifier s).shRx = s.shRx ∧ (getDescQualifier s).shRxFull =
    s.shRxFull ∧ (getDescQualifier s).value0 = s.value0 ∧ (getDescQualifier s).value1 = s.value1 ∧
    (getDescQualifier s).dpPos = s.dpPos ∧ (getDescQualifier s).keyIe = s.keyIe ∧ (getDescQualifier s).keyIf =
    s.keyIf ∧ (getDescQualifier s).usbAddr = s.usbAddr ∧ (getDescQualifier s).pendAddr = s.pendAddr ∧
    (getDescQualifier s).configured = s.configured ∧ (getDescQualifier s).ctlDir = s.ctlDir ∧ (getDescQualifier
    s).ctlSrcTable = s.ctlSrcTable ∧ (getDescQualifier s).ctlSrcOff = s.ctlSrcOff ∧ (getDescQualifier s).ctlDst
    = s.ctlDst ∧ (getDescQualifier s).ctlRemaining = s.ctlRemaining ∧ (getDescQualifier s).ctlToggle =
    s.ctlToggle ∧ (getDescQualifier s).ctlZlp = s.ctlZlp ∧ (getDescQualifier s).ctlStatus = s.ctlStatus ∧
    (getDescQualifier s).bdEp0Out = s.bdEp0Out ∧ (getDescQualifier s).bdEp1Out = s.bdEp1Out ∧ (getDescQualifier
    s).bdEp1In = s.bdEp1In ∧ (getDescQualifier s).ep1Enabled = s.ep1Enabled ∧ (getDescQualifier s).ep1OutDts =
    s.ep1OutDts ∧ (getDescQualifier s).ep1InDts = s.ep1InDts ∧ (getDescQualifier s).spiIf = s.spiIf ∧
    (getDescQualifier s).busResetIf = s.busResetIf ∧ (getDescQualifier s).busOtherIf = s.busOtherIf ∧
    (getDescQualifier s).timerIf = s.timerIf ∧ (getDescQualifier s).trnFifo = s.trnFifo ∧ (getDescQualifier
    s).ram = s.ram ∧ (getDescQualifier s).draws = s.draws ∧ (getDescQualifier s).hostLog = s.hostLog ∧
    (getDescQualifier s).inputs = s.inputs := by
  unfold getDescQualifier; (repeat' split) <;> simp

/-- R185. -/
@[simp] theorem setAddressRequest_frame (v : Word16) (s : State) :
    (setAddressRequest v s).cfg = s.cfg ∧ (setAddressRequest v s).spiActive = s.spiActive ∧ (setAddressRequest v
    s).spiPtr = s.spiPtr ∧ (setAddressRequest v s).spiRemaining = s.spiRemaining ∧ (setAddressRequest v
    s).spiCallback = s.spiCallback ∧ (setAddressRequest v s).spiCs = s.spiCs ∧ (setAddressRequest v s).shBusy =
    s.shBusy ∧ (setAddressRequest v s).shTx = s.shTx ∧ (setAddressRequest v s).shRx = s.shRx ∧
    (setAddressRequest v s).shRxFull = s.shRxFull ∧ (setAddressRequest v s).value0 = s.value0 ∧
    (setAddressRequest v s).value1 = s.value1 ∧ (setAddressRequest v s).dpPos = s.dpPos ∧ (setAddressRequest v
    s).keyIe = s.keyIe ∧ (setAddressRequest v s).keyIf = s.keyIf ∧ (setAddressRequest v s).usbAddr = s.usbAddr ∧
    (setAddressRequest v s).configured = s.configured ∧ (setAddressRequest v s).ctlDir = s.ctlDir ∧
    (setAddressRequest v s).ctlSrcTable = s.ctlSrcTable ∧ (setAddressRequest v s).ctlSrcOff = s.ctlSrcOff ∧
    (setAddressRequest v s).ctlDst = s.ctlDst ∧ (setAddressRequest v s).ctlRemaining = s.ctlRemaining ∧
    (setAddressRequest v s).ctlToggle = s.ctlToggle ∧ (setAddressRequest v s).ctlZlp = s.ctlZlp ∧
    (setAddressRequest v s).bdEp0Out = s.bdEp0Out ∧ (setAddressRequest v s).bdEp1Out = s.bdEp1Out ∧
    (setAddressRequest v s).bdEp1In = s.bdEp1In ∧ (setAddressRequest v s).ep1Enabled = s.ep1Enabled ∧
    (setAddressRequest v s).ep1OutDts = s.ep1OutDts ∧ (setAddressRequest v s).ep1InDts = s.ep1InDts ∧
    (setAddressRequest v s).spiIf = s.spiIf ∧ (setAddressRequest v s).busResetIf = s.busResetIf ∧
    (setAddressRequest v s).busOtherIf = s.busOtherIf ∧ (setAddressRequest v s).timerIf = s.timerIf ∧
    (setAddressRequest v s).trnFifo = s.trnFifo ∧ (setAddressRequest v s).ram = s.ram ∧ (setAddressRequest v
    s).draws = s.draws ∧ (setAddressRequest v s).hostLog = s.hostLog ∧ (setAddressRequest v s).inputs = s.inputs := by
  unfold setAddressRequest; (repeat' split) <;> simp

/-- R187. -/
@[simp] theorem setConfigurationRequest_frame (cv : Byte) (s : State) :
    (setConfigurationRequest cv s).cfg = s.cfg ∧ (setConfigurationRequest cv s).shRx = s.shRx ∧
    (setConfigurationRequest cv s).shRxFull = s.shRxFull ∧ (setConfigurationRequest cv s).value0 = s.value0 ∧
    (setConfigurationRequest cv s).value1 = s.value1 ∧ (setConfigurationRequest cv s).dpPos = s.dpPos ∧
    (setConfigurationRequest cv s).keyIf = s.keyIf ∧ (setConfigurationRequest cv s).usbAddr = s.usbAddr ∧
    (setConfigurationRequest cv s).pendAddr = s.pendAddr ∧ (setConfigurationRequest cv s).ctlDir = s.ctlDir ∧
    (setConfigurationRequest cv s).ctlSrcTable = s.ctlSrcTable ∧ (setConfigurationRequest cv s).ctlSrcOff =
    s.ctlSrcOff ∧ (setConfigurationRequest cv s).ctlDst = s.ctlDst ∧ (setConfigurationRequest cv s).ctlRemaining
    = s.ctlRemaining ∧ (setConfigurationRequest cv s).ctlToggle = s.ctlToggle ∧ (setConfigurationRequest cv
    s).ctlZlp = s.ctlZlp ∧ (setConfigurationRequest cv s).bdEp0Out = s.bdEp0Out ∧ (setConfigurationRequest cv
    s).spiIf = s.spiIf ∧ (setConfigurationRequest cv s).busResetIf = s.busResetIf ∧ (setConfigurationRequest cv
    s).busOtherIf = s.busOtherIf ∧ (setConfigurationRequest cv s).timerIf = s.timerIf ∧ (setConfigurationRequest
    cv s).trnFifo = s.trnFifo ∧ (setConfigurationRequest cv s).hostLog = s.hostLog ∧ (setConfigurationRequest cv
    s).inputs = s.inputs := by
  unfold setConfigurationRequest; (repeat' split) <;> simp

/-- R188. -/
@[simp] theorem setInterfaceRequest_frame (v : Word16) (s : State) :
    (setInterfaceRequest v s).cfg = s.cfg ∧ (setInterfaceRequest v s).spiActive = s.spiActive ∧
    (setInterfaceRequest v s).spiPtr = s.spiPtr ∧ (setInterfaceRequest v s).spiRemaining = s.spiRemaining ∧
    (setInterfaceRequest v s).spiCallback = s.spiCallback ∧ (setInterfaceRequest v s).spiCs = s.spiCs ∧
    (setInterfaceRequest v s).shBusy = s.shBusy ∧ (setInterfaceRequest v s).shTx = s.shTx ∧ (setInterfaceRequest
    v s).shRx = s.shRx ∧ (setInterfaceRequest v s).shRxFull = s.shRxFull ∧ (setInterfaceRequest v s).value0 =
    s.value0 ∧ (setInterfaceRequest v s).value1 = s.value1 ∧ (setInterfaceRequest v s).dpPos = s.dpPos ∧
    (setInterfaceRequest v s).keyIe = s.keyIe ∧ (setInterfaceRequest v s).keyIf = s.keyIf ∧ (setInterfaceRequest
    v s).usbAddr = s.usbAddr ∧ (setInterfaceRequest v s).pendAddr = s.pendAddr ∧ (setInterfaceRequest v
    s).configured = s.configured ∧ (setInterfaceRequest v s).ctlDir = s.ctlDir ∧ (setInterfaceRequest v
    s).ctlSrcTable = s.ctlSrcTable ∧ (setInterfaceRequest v s).ctlSrcOff = s.ctlSrcOff ∧ (setInterfaceRequest v
    s).ctlDst = s.ctlDst ∧ (setInterfaceRequest v s).ctlRemaining = s.ctlRemaining ∧ (setInterfaceRequest v
    s).ctlToggle = s.ctlToggle ∧ (setInterfaceRequest v s).ctlZlp = s.ctlZlp ∧ (setInterfaceRequest v
    s).bdEp0Out = s.bdEp0Out ∧ (setInterfaceRequest v s).bdEp1Out = s.bdEp1Out ∧ (setInterfaceRequest v
    s).bdEp1In = s.bdEp1In ∧ (setInterfaceRequest v s).ep1Enabled = s.ep1Enabled ∧ (setInterfaceRequest v
    s).ep1OutDts = s.ep1OutDts ∧ (setInterfaceRequest v s).ep1InDts = s.ep1InDts ∧ (setInterfaceRequest v
    s).spiIf = s.spiIf ∧ (setInterfaceRequest v s).busResetIf = s.busResetIf ∧ (setInterfaceRequest v
    s).busOtherIf = s.busOtherIf ∧ (setInterfaceRequest v s).timerIf = s.timerIf ∧ (setInterfaceRequest v
    s).trnFifo = s.trnFifo ∧ (setInterfaceRequest v s).ram = s.ram ∧ (setInterfaceRequest v s).draws = s.draws ∧
    (setInterfaceRequest v s).hostLog = s.hostLog ∧ (setInterfaceRequest v s).inputs = s.inputs := by
  unfold setInterfaceRequest; (repeat' split) <;> simp

/-- R190. -/
@[simp] theorem setReportRequest_frame (ty : Byte) (s : State) :
    (setReportRequest ty s).cfg = s.cfg ∧ (setReportRequest ty s).spiActive = s.spiActive ∧ (setReportRequest ty
    s).spiPtr = s.spiPtr ∧ (setReportRequest ty s).spiRemaining = s.spiRemaining ∧ (setReportRequest ty
    s).spiCallback = s.spiCallback ∧ (setReportRequest ty s).spiCs = s.spiCs ∧ (setReportRequest ty s).shBusy =
    s.shBusy ∧ (setReportRequest ty s).shTx = s.shTx ∧ (setReportRequest ty s).shRx = s.shRx ∧ (setReportRequest
    ty s).shRxFull = s.shRxFull ∧ (setReportRequest ty s).value0 = s.value0 ∧ (setReportRequest ty s).value1 =
    s.value1 ∧ (setReportRequest ty s).dpPos = s.dpPos ∧ (setReportRequest ty s).keyIe = s.keyIe ∧
    (setReportRequest ty s).keyIf = s.keyIf ∧ (setReportRequest ty s).usbAddr = s.usbAddr ∧ (setReportRequest ty
    s).pendAddr = s.pendAddr ∧ (setReportRequest ty s).configured = s.configured ∧ (setReportRequest ty
    s).ctlSrcTable = s.ctlSrcTable ∧ (setReportRequest ty s).ctlSrcOff = s.ctlSrcOff ∧ (setReportRequest ty
    s).ctlZlp = s.ctlZlp ∧ (setReportRequest ty s).ctlStatus = s.ctlStatus ∧ (setReportRequest ty s).bdEp0Out =
    s.bdEp0Out ∧ (setReportRequest ty s).bdEp1Out = s.bdEp1Out ∧ (setReportRequest ty s).bdEp1In = s.bdEp1In ∧
    (setReportRequest ty s).ep1Enabled = s.ep1Enabled ∧ (setReportRequest ty s).ep1OutDts = s.ep1OutDts ∧
    (setReportRequest ty s).ep1InDts = s.ep1InDts ∧ (setReportRequest ty s).spiIf = s.spiIf ∧ (setReportRequest
    ty s).busResetIf = s.busResetIf ∧ (setReportRequest ty s).busOtherIf = s.busOtherIf ∧ (setReportRequest ty
    s).timerIf = s.timerIf ∧ (setReportRequest ty s).trnFifo = s.trnFifo ∧ (setReportRequest ty s).ram = s.ram ∧
    (setReportRequest ty s).draws = s.draws ∧ (setReportRequest ty s).hostLog = s.hostLog ∧ (setReportRequest ty
    s).inputs = s.inputs := by
  unfold setReportRequest; (repeat' split) <;> simp

/-- R266. -/
@[simp] theorem timerTick_frame (s : State) :
    (timerTick s).cfg = s.cfg ∧ (timerTick s).spiActive = s.spiActive ∧ (timerTick s).spiPtr = s.spiPtr ∧
    (timerTick s).spiRemaining = s.spiRemaining ∧ (timerTick s).spiCallback = s.spiCallback ∧ (timerTick
    s).spiCs = s.spiCs ∧ (timerTick s).shBusy = s.shBusy ∧ (timerTick s).shTx = s.shTx ∧ (timerTick s).shRx =
    s.shRx ∧ (timerTick s).shRxFull = s.shRxFull ∧ (timerTick s).value0 = s.value0 ∧ (timerTick s).value1 =
    s.value1 ∧ (timerTick s).dpPos = s.dpPos ∧ (timerTick s).keyIe = s.keyIe ∧ (timerTick s).keyIf = s.keyIf ∧
    (timerTick s).usbAddr = s.usbAddr ∧ (timerTick s).pendAddr = s.pendAddr ∧ (timerTick s).configured =
    s.configured ∧ (timerTick s).ctlDir = s.ctlDir ∧ (timerTick s).ctlSrcTable = s.ctlSrcTable ∧ (timerTick
    s).ctlSrcOff = s.ctlSrcOff ∧ (timerTick s).ctlDst = s.ctlDst ∧ (timerTick s).ctlRemaining = s.ctlRemaining ∧
    (timerTick s).ctlToggle = s.ctlToggle ∧ (timerTick s).ctlZlp = s.ctlZlp ∧ (timerTick s).ctlStatus =
    s.ctlStatus ∧ (timerTick s).bdEp0Out = s.bdEp0Out ∧ (timerTick s).bdEp0In = s.bdEp0In ∧ (timerTick
    s).bdEp1Out = s.bdEp1Out ∧ (timerTick s).bdEp1In = s.bdEp1In ∧ (timerTick s).ep1Enabled = s.ep1Enabled ∧
    (timerTick s).ep1OutDts = s.ep1OutDts ∧ (timerTick s).ep1InDts = s.ep1InDts ∧ (timerTick s).spiIf = s.spiIf
    ∧ (timerTick s).busResetIf = s.busResetIf ∧ (timerTick s).busOtherIf = s.busOtherIf ∧ (timerTick s).trnFifo
    = s.trnFifo ∧ (timerTick s).fatal = s.fatal ∧ (timerTick s).faults = s.faults ∧ (timerTick s).trace =
    s.trace ∧ (timerTick s).ram = s.ram ∧ (timerTick s).draws = s.draws ∧ (timerTick s).hostLog = s.hostLog ∧
    (timerTick s).inputs = s.inputs := by
  repeat' apply And.intro
  all_goals rfl

/-- R264. -/
@[simp] theorem spiByteComplete_frame (s : State) :
    (spiByteComplete s).cfg = s.cfg ∧ (spiByteComplete s).shRx = s.shRx ∧ (spiByteComplete s).dpPos = s.dpPos ∧
    (spiByteComplete s).keyIf = s.keyIf ∧ (spiByteComplete s).usbAddr = s.usbAddr ∧ (spiByteComplete s).pendAddr
    = s.pendAddr ∧ (spiByteComplete s).configured = s.configured ∧ (spiByteComplete s).ctlDir = s.ctlDir ∧
    (spiByteComplete s).ctlSrcTable = s.ctlSrcTable ∧ (spiByteComplete s).ctlSrcOff = s.ctlSrcOff ∧
    (spiByteComplete s).ctlDst = s.ctlDst ∧ (spiByteComplete s).ctlRemaining = s.ctlRemaining ∧ (spiByteComplete
    s).ctlToggle = s.ctlToggle ∧ (spiByteComplete s).ctlZlp = s.ctlZlp ∧ (spiByteComplete s).ctlStatus =
    s.ctlStatus ∧ (spiByteComplete s).bdEp0Out = s.bdEp0Out ∧ (spiByteComplete s).bdEp0In = s.bdEp0In ∧
    (spiByteComplete s).bdEp1Out = s.bdEp1Out ∧ (spiByteComplete s).ep1Enabled = s.ep1Enabled ∧ (spiByteComplete
    s).ep1OutDts = s.ep1OutDts ∧ (spiByteComplete s).ep1InDts = s.ep1InDts ∧ (spiByteComplete s).busResetIf =
    s.busResetIf ∧ (spiByteComplete s).busOtherIf = s.busOtherIf ∧ (spiByteComplete s).timerIf = s.timerIf ∧
    (spiByteComplete s).trnFifo = s.trnFifo ∧ (spiByteComplete s).hostLog = s.hostLog ∧ (spiByteComplete
    s).inputs = s.inputs := by
  simp [spiByteComplete]

/-- R265. -/
@[simp] theorem keyIrq_frame (s : State) :
    (keyIrq s).cfg = s.cfg ∧ (keyIrq s).shRx = s.shRx ∧ (keyIrq s).shRxFull = s.shRxFull ∧ (keyIrq s).value0 =
    s.value0 ∧ (keyIrq s).value1 = s.value1 ∧ (keyIrq s).dpPos = s.dpPos ∧ (keyIrq s).keyIe = s.keyIe ∧ (keyIrq
    s).usbAddr = s.usbAddr ∧ (keyIrq s).pendAddr = s.pendAddr ∧ (keyIrq s).configured = s.configured ∧ (keyIrq
    s).ctlDir = s.ctlDir ∧ (keyIrq s).ctlSrcTable = s.ctlSrcTable ∧ (keyIrq s).ctlSrcOff = s.ctlSrcOff ∧ (keyIrq
    s).ctlDst = s.ctlDst ∧ (keyIrq s).ctlRemaining = s.ctlRemaining ∧ (keyIrq s).ctlToggle = s.ctlToggle ∧
    (keyIrq s).ctlZlp = s.ctlZlp ∧ (keyIrq s).ctlStatus = s.ctlStatus ∧ (keyIrq s).bdEp0Out = s.bdEp0Out ∧
    (keyIrq s).bdEp0In = s.bdEp0In ∧ (keyIrq s).bdEp1Out = s.bdEp1Out ∧ (keyIrq s).bdEp1In = s.bdEp1In ∧ (keyIrq
    s).ep1Enabled = s.ep1Enabled ∧ (keyIrq s).ep1OutDts = s.ep1OutDts ∧ (keyIrq s).ep1InDts = s.ep1InDts ∧
    (keyIrq s).spiIf = s.spiIf ∧ (keyIrq s).busResetIf = s.busResetIf ∧ (keyIrq s).busOtherIf = s.busOtherIf ∧
    (keyIrq s).timerIf = s.timerIf ∧ (keyIrq s).trnFifo = s.trnFifo ∧ (keyIrq s).hostLog = s.hostLog ∧ (keyIrq
    s).inputs = s.inputs := by
  simp [keyIrq]

/-- R292. -/
@[simp] theorem busReset_frame (s : State) :
    (busReset s).cfg = s.cfg ∧ (busReset s).shRx = s.shRx ∧ (busReset s).shRxFull = s.shRxFull ∧ (busReset
    s).value0 = s.value0 ∧ (busReset s).value1 = s.value1 ∧ (busReset s).dpPos = s.dpPos ∧ (busReset s).keyIf =
    s.keyIf ∧ (busReset s).ep1OutDts = s.ep1OutDts ∧ (busReset s).ep1InDts = s.ep1InDts ∧ (busReset s).spiIf =
    s.spiIf ∧ (busReset s).busResetIf = s.busResetIf ∧ (busReset s).busOtherIf = s.busOtherIf ∧ (busReset
    s).timerIf = s.timerIf ∧ (busReset s).hostLog = s.hostLog ∧ (busReset s).inputs = s.inputs := by
  simp only [busReset]; split <;> simp

/-- R263. -/
@[simp] theorem usbBusEvent_frame (s : State) :
    (usbBusEvent s).cfg = s.cfg ∧ (usbBusEvent s).shRx = s.shRx ∧ (usbBusEvent s).shRxFull = s.shRxFull ∧
    (usbBusEvent s).value0 = s.value0 ∧ (usbBusEvent s).value1 = s.value1 ∧ (usbBusEvent s).dpPos = s.dpPos ∧
    (usbBusEvent s).keyIf = s.keyIf ∧ (usbBusEvent s).ep1OutDts = s.ep1OutDts ∧ (usbBusEvent s).ep1InDts =
    s.ep1InDts ∧ (usbBusEvent s).spiIf = s.spiIf ∧ (usbBusEvent s).timerIf = s.timerIf ∧ (usbBusEvent s).hostLog
    = s.hostLog ∧ (usbBusEvent s).inputs = s.inputs := by
  simp only [usbBusEvent]; (repeat' split) <;> simp

/-- R46. -/
@[simp] theorem shifterStep_frame (rx : Byte) (s : State) :
    (shifterStep rx s).cfg = s.cfg ∧ (shifterStep rx s).spiActive = s.spiActive ∧ (shifterStep rx s).spiPtr =
    s.spiPtr ∧ (shifterStep rx s).spiRemaining = s.spiRemaining ∧ (shifterStep rx s).spiCallback = s.spiCallback
    ∧ (shifterStep rx s).spiCs = s.spiCs ∧ (shifterStep rx s).shTx = s.shTx ∧ (shifterStep rx s).value0 =
    s.value0 ∧ (shifterStep rx s).value1 = s.value1 ∧ (shifterStep rx s).dpPos = s.dpPos ∧ (shifterStep rx
    s).keyIe = s.keyIe ∧ (shifterStep rx s).keyIf = s.keyIf ∧ (shifterStep rx s).usbAddr = s.usbAddr ∧
    (shifterStep rx s).pendAddr = s.pendAddr ∧ (shifterStep rx s).configured = s.configured ∧ (shifterStep rx
    s).ctlDir = s.ctlDir ∧ (shifterStep rx s).ctlSrcTable = s.ctlSrcTable ∧ (shifterStep rx s).ctlSrcOff =
    s.ctlSrcOff ∧ (shifterStep rx s).ctlDst = s.ctlDst ∧ (shifterStep rx s).ctlRemaining = s.ctlRemaining ∧
    (shifterStep rx s).ctlToggle = s.ctlToggle ∧ (shifterStep rx s).ctlZlp = s.ctlZlp ∧ (shifterStep rx
    s).ctlStatus = s.ctlStatus ∧ (shifterStep rx s).bdEp0Out = s.bdEp0Out ∧ (shifterStep rx s).bdEp0In =
    s.bdEp0In ∧ (shifterStep rx s).bdEp1Out = s.bdEp1Out ∧ (shifterStep rx s).bdEp1In = s.bdEp1In ∧ (shifterStep
    rx s).ep1Enabled = s.ep1Enabled ∧ (shifterStep rx s).ep1OutDts = s.ep1OutDts ∧ (shifterStep rx s).ep1InDts =
    s.ep1InDts ∧ (shifterStep rx s).busResetIf = s.busResetIf ∧ (shifterStep rx s).busOtherIf = s.busOtherIf ∧
    (shifterStep rx s).timerIf = s.timerIf ∧ (shifterStep rx s).trnFifo = s.trnFifo ∧ (shifterStep rx s).fatal =
    s.fatal ∧ (shifterStep rx s).faults = s.faults ∧ (shifterStep rx s).trace = s.trace ∧ (shifterStep rx s).ram
    = s.ram ∧ (shifterStep rx s).draws = s.draws ∧ (shifterStep rx s).hostLog = s.hostLog ∧ (shifterStep rx
    s).inputs = s.inputs := by
  unfold shifterStep; (repeat' split) <;> simp

/-- R47. -/
@[simp] theorem completeOut_frame (ep : Endpoint) (p : Pid) (bytes : List Byte) (s : State) :
    (completeOut ep p bytes s).cfg = s.cfg ∧ (completeOut ep p bytes s).spiActive = s.spiActive ∧ (completeOut
    ep p bytes s).spiPtr = s.spiPtr ∧ (completeOut ep p bytes s).spiRemaining = s.spiRemaining ∧ (completeOut ep
    p bytes s).spiCallback = s.spiCallback ∧ (completeOut ep p bytes s).spiCs = s.spiCs ∧ (completeOut ep p
    bytes s).shBusy = s.shBusy ∧ (completeOut ep p bytes s).shTx = s.shTx ∧ (completeOut ep p bytes s).shRx =
    s.shRx ∧ (completeOut ep p bytes s).shRxFull = s.shRxFull ∧ (completeOut ep p bytes s).value0 = s.value0 ∧
    (completeOut ep p bytes s).value1 = s.value1 ∧ (completeOut ep p bytes s).dpPos = s.dpPos ∧ (completeOut ep
    p bytes s).keyIe = s.keyIe ∧ (completeOut ep p bytes s).keyIf = s.keyIf ∧ (completeOut ep p bytes s).usbAddr
    = s.usbAddr ∧ (completeOut ep p bytes s).pendAddr = s.pendAddr ∧ (completeOut ep p bytes s).configured =
    s.configured ∧ (completeOut ep p bytes s).ctlDir = s.ctlDir ∧ (completeOut ep p bytes s).ctlSrcTable =
    s.ctlSrcTable ∧ (completeOut ep p bytes s).ctlSrcOff = s.ctlSrcOff ∧ (completeOut ep p bytes s).ctlDst =
    s.ctlDst ∧ (completeOut ep p bytes s).ctlRemaining = s.ctlRemaining ∧ (completeOut ep p bytes s).ctlToggle =
    s.ctlToggle ∧ (completeOut ep p bytes s).ctlZlp = s.ctlZlp ∧ (completeOut ep p bytes s).ctlStatus =
    s.ctlStatus ∧ (completeOut ep p bytes s).ep1Enabled = s.ep1Enabled ∧ (completeOut ep p bytes s).ep1OutDts =
    s.ep1OutDts ∧ (completeOut ep p bytes s).ep1InDts = s.ep1InDts ∧ (completeOut ep p bytes s).spiIf = s.spiIf
    ∧ (completeOut ep p bytes s).busResetIf = s.busResetIf ∧ (completeOut ep p bytes s).busOtherIf =
    s.busOtherIf ∧ (completeOut ep p bytes s).timerIf = s.timerIf ∧ (completeOut ep p bytes s).fatal = s.fatal ∧
    (completeOut ep p bytes s).faults = s.faults ∧ (completeOut ep p bytes s).trace = s.trace ∧ (completeOut ep
    p bytes s).draws = s.draws ∧ (completeOut ep p bytes s).hostLog = s.hostLog ∧ (completeOut ep p bytes
    s).inputs = s.inputs := by
  simp [completeOut]

/-- R48. -/
@[simp] theorem completeIn_frame (ep : Endpoint) (s : State) :
    (completeIn ep s).cfg = s.cfg ∧ (completeIn ep s).spiActive = s.spiActive ∧ (completeIn ep s).spiPtr =
    s.spiPtr ∧ (completeIn ep s).spiRemaining = s.spiRemaining ∧ (completeIn ep s).spiCallback = s.spiCallback ∧
    (completeIn ep s).spiCs = s.spiCs ∧ (completeIn ep s).shBusy = s.shBusy ∧ (completeIn ep s).shTx = s.shTx ∧
    (completeIn ep s).shRx = s.shRx ∧ (completeIn ep s).shRxFull = s.shRxFull ∧ (completeIn ep s).value0 =
    s.value0 ∧ (completeIn ep s).value1 = s.value1 ∧ (completeIn ep s).dpPos = s.dpPos ∧ (completeIn ep s).keyIe
    = s.keyIe ∧ (completeIn ep s).keyIf = s.keyIf ∧ (completeIn ep s).usbAddr = s.usbAddr ∧ (completeIn ep
    s).pendAddr = s.pendAddr ∧ (completeIn ep s).configured = s.configured ∧ (completeIn ep s).ctlDir = s.ctlDir
    ∧ (completeIn ep s).ctlSrcTable = s.ctlSrcTable ∧ (completeIn ep s).ctlSrcOff = s.ctlSrcOff ∧ (completeIn ep
    s).ctlDst = s.ctlDst ∧ (completeIn ep s).ctlRemaining = s.ctlRemaining ∧ (completeIn ep s).ctlToggle =
    s.ctlToggle ∧ (completeIn ep s).ctlZlp = s.ctlZlp ∧ (completeIn ep s).ctlStatus = s.ctlStatus ∧ (completeIn
    ep s).ep1Enabled = s.ep1Enabled ∧ (completeIn ep s).ep1OutDts = s.ep1OutDts ∧ (completeIn ep s).ep1InDts =
    s.ep1InDts ∧ (completeIn ep s).spiIf = s.spiIf ∧ (completeIn ep s).busResetIf = s.busResetIf ∧ (completeIn
    ep s).busOtherIf = s.busOtherIf ∧ (completeIn ep s).timerIf = s.timerIf ∧ (completeIn ep s).fatal = s.fatal
    ∧ (completeIn ep s).ram = s.ram ∧ (completeIn ep s).inputs = s.inputs := by
  simp [completeIn]

/-- R193. -/
theorem sendChunk_frame {s t : State} (h : sendChunk s = .ok t) :
    t.cfg = s.cfg ∧ t.spiActive = s.spiActive ∧ t.spiPtr = s.spiPtr ∧ t.spiRemaining = s.spiRemaining ∧
    t.spiCallback = s.spiCallback ∧ t.spiCs = s.spiCs ∧ t.shBusy = s.shBusy ∧ t.shTx = s.shTx ∧ t.shRx = s.shRx
    ∧ t.shRxFull = s.shRxFull ∧ t.value0 = s.value0 ∧ t.value1 = s.value1 ∧ t.dpPos = s.dpPos ∧ t.keyIe =
    s.keyIe ∧ t.keyIf = s.keyIf ∧ t.usbAddr = s.usbAddr ∧ t.pendAddr = s.pendAddr ∧ t.configured = s.configured
    ∧ t.ctlDir = s.ctlDir ∧ t.ctlSrcTable = s.ctlSrcTable ∧ t.ctlDst = s.ctlDst ∧ t.ctlZlp = s.ctlZlp ∧
    t.ctlStatus = s.ctlStatus ∧ t.bdEp0Out = s.bdEp0Out ∧ t.bdEp1Out = s.bdEp1Out ∧ t.bdEp1In = s.bdEp1In ∧
    t.ep1Enabled = s.ep1Enabled ∧ t.ep1OutDts = s.ep1OutDts ∧ t.ep1InDts = s.ep1InDts ∧ t.spiIf = s.spiIf ∧
    t.busResetIf = s.busResetIf ∧ t.busOtherIf = s.busOtherIf ∧ t.timerIf = s.timerIf ∧ t.trnFifo = s.trnFifo ∧
    t.fatal = s.fatal ∧ t.draws = s.draws ∧ t.hostLog = s.hostLog ∧ t.inputs = s.inputs := by
  unfold sendChunk at h; split at h <;> simp at h
  subst h; simp

/-- R178. -/
theorem startControlRead_frame (d : DescId) (len : Word16) {s t : State} (h : startControlRead d len s = .ok t) :
    t.cfg = s.cfg ∧ t.spiActive = s.spiActive ∧ t.spiPtr = s.spiPtr ∧ t.spiRemaining = s.spiRemaining ∧
    t.spiCallback = s.spiCallback ∧ t.spiCs = s.spiCs ∧ t.shBusy = s.shBusy ∧ t.shTx = s.shTx ∧ t.shRx = s.shRx
    ∧ t.shRxFull = s.shRxFull ∧ t.value0 = s.value0 ∧ t.value1 = s.value1 ∧ t.dpPos = s.dpPos ∧ t.keyIe =
    s.keyIe ∧ t.keyIf = s.keyIf ∧ t.usbAddr = s.usbAddr ∧ t.pendAddr = s.pendAddr ∧ t.configured = s.configured
    ∧ t.ctlDst = s.ctlDst ∧ t.ctlStatus = s.ctlStatus ∧ t.bdEp0Out = s.bdEp0Out ∧ t.bdEp1Out = s.bdEp1Out ∧
    t.bdEp1In = s.bdEp1In ∧ t.ep1Enabled = s.ep1Enabled ∧ t.ep1OutDts = s.ep1OutDts ∧ t.ep1InDts = s.ep1InDts ∧
    t.spiIf = s.spiIf ∧ t.busResetIf = s.busResetIf ∧ t.busOtherIf = s.busOtherIf ∧ t.timerIf = s.timerIf ∧
    t.trnFifo = s.trnFifo ∧ t.fatal = s.fatal ∧ t.draws = s.draws ∧ t.hostLog = s.hostLog ∧ t.inputs = s.inputs := by
  have := sendChunk_frame h; simp [this]

/-- R195. -/
theorem controlWriteData_frame (c : Nat) {s t : State} (h : controlWriteData c s = .ok t) :
    t.cfg = s.cfg ∧ t.shRx = s.shRx ∧ t.shRxFull = s.shRxFull ∧ t.dpPos = s.dpPos ∧ t.keyIe = s.keyIe ∧ t.keyIf
    = s.keyIf ∧ t.usbAddr = s.usbAddr ∧ t.pendAddr = s.pendAddr ∧ t.configured = s.configured ∧ t.ctlSrcTable =
    s.ctlSrcTable ∧ t.ctlSrcOff = s.ctlSrcOff ∧ t.ctlZlp = s.ctlZlp ∧ t.bdEp0Out = s.bdEp0Out ∧ t.bdEp1Out =
    s.bdEp1Out ∧ t.bdEp1In = s.bdEp1In ∧ t.ep1Enabled = s.ep1Enabled ∧ t.ep1OutDts = s.ep1OutDts ∧ t.ep1InDts =
    s.ep1InDts ∧ t.spiIf = s.spiIf ∧ t.busResetIf = s.busResetIf ∧ t.busOtherIf = s.busOtherIf ∧ t.timerIf =
    s.timerIf ∧ t.trnFifo = s.trnFifo ∧ t.hostLog = s.hostLog ∧ t.inputs = s.inputs := by
  simp only [controlWriteData, memRead, memWrite] at h
  split at h <;> try contradiction
  rename_i h1; split at h1 <;> simp at h1
  obtain ⟨rfl, rfl⟩ := h1
  split at h <;> try contradiction
  rename_i h2; split at h2 <;> simp at h2
  subst h2; simp at h; subst h; simp

/-- R196. -/
theorem onEp0In_frame {s t : State} (h : onEp0In s = .ok t) :
    t.cfg = s.cfg ∧ t.spiActive = s.spiActive ∧ t.spiPtr = s.spiPtr ∧ t.spiRemaining = s.spiRemaining ∧
    t.spiCallback = s.spiCallback ∧ t.spiCs = s.spiCs ∧ t.shBusy = s.shBusy ∧ t.shTx = s.shTx ∧ t.shRx = s.shRx
    ∧ t.shRxFull = s.shRxFull ∧ t.value0 = s.value0 ∧ t.value1 = s.value1 ∧ t.dpPos = s.dpPos ∧ t.keyIe =
    s.keyIe ∧ t.keyIf = s.keyIf ∧ t.configured = s.configured ∧ t.ctlSrcTable = s.ctlSrcTable ∧ t.ctlDst =
    s.ctlDst ∧ t.bdEp0Out = s.bdEp0Out ∧ t.bdEp1Out = s.bdEp1Out ∧ t.bdEp1In = s.bdEp1In ∧ t.ep1Enabled =
    s.ep1Enabled ∧ t.ep1OutDts = s.ep1OutDts ∧ t.ep1InDts = s.ep1InDts ∧ t.spiIf = s.spiIf ∧ t.busResetIf =
    s.busResetIf ∧ t.busOtherIf = s.busOtherIf ∧ t.timerIf = s.timerIf ∧ t.trnFifo = s.trnFifo ∧ t.fatal =
    s.fatal ∧ t.draws = s.draws ∧ t.hostLog = s.hostLog ∧ t.inputs = s.inputs := by
  unfold onEp0In at h
  split at h
  · split at h
    · have := sendChunk_frame h; simp [this]
    · split at h
      · have := sendChunk_frame h; simp [this]
      · simp at h; subst h; simp
  · split at h <;> simp at h <;> subst h <;> simp

/-- R197, after the read of the count. -/
theorem handleEp0Out_frame {s t : State} (h : handleEp0Out s = .ok t) :
    t.cfg = s.cfg ∧ t.shRx = s.shRx ∧ t.shRxFull = s.shRxFull ∧ t.dpPos = s.dpPos ∧ t.keyIe = s.keyIe ∧ t.keyIf
    = s.keyIf ∧ t.usbAddr = s.usbAddr ∧ t.pendAddr = s.pendAddr ∧ t.configured = s.configured ∧ t.ctlSrcTable =
    s.ctlSrcTable ∧ t.ctlSrcOff = s.ctlSrcOff ∧ t.bdEp1Out = s.bdEp1Out ∧ t.bdEp1In = s.bdEp1In ∧ t.ep1Enabled =
    s.ep1Enabled ∧ t.ep1OutDts = s.ep1OutDts ∧ t.ep1InDts = s.ep1InDts ∧ t.spiIf = s.spiIf ∧ t.busResetIf =
    s.busResetIf ∧ t.busOtherIf = s.busOtherIf ∧ t.timerIf = s.timerIf ∧ t.trnFifo = s.trnFifo ∧ t.hostLog =
    s.hostLog ∧ t.inputs = s.inputs := by
  unfold handleEp0Out at h
  split at h
  · split at h <;> simp at h
    rename_i hw; subst h
    have := controlWriteData_frame _ hw; simp [this]
  · split at h <;> simp at h <;> subst h <;> simp

/-- R197. -/
theorem onEp0Out_frame {s t : State} (h : onEp0Out s = .ok t) :
    t.cfg = s.cfg ∧ t.shRx = s.shRx ∧ t.shRxFull = s.shRxFull ∧ t.dpPos = s.dpPos ∧ t.keyIe = s.keyIe ∧ t.keyIf
    = s.keyIf ∧ t.usbAddr = s.usbAddr ∧ t.pendAddr = s.pendAddr ∧ t.configured = s.configured ∧ t.ctlSrcTable =
    s.ctlSrcTable ∧ t.ctlSrcOff = s.ctlSrcOff ∧ t.bdEp1Out = s.bdEp1Out ∧ t.bdEp1In = s.bdEp1In ∧ t.ep1Enabled =
    s.ep1Enabled ∧ t.ep1OutDts = s.ep1OutDts ∧ t.ep1InDts = s.ep1InDts ∧ t.spiIf = s.spiIf ∧ t.busResetIf =
    s.busResetIf ∧ t.busOtherIf = s.busOtherIf ∧ t.timerIf = s.timerIf ∧ t.trnFifo = s.trnFifo ∧ t.hostLog =
    s.hostLog ∧ t.inputs = s.inputs := by
  have := handleEp0Out_frame h; simp [this]

/-- R173 to R177. -/
theorem dispatchSetup_frame (p : SetupPacket) {s t : State} (h : dispatchSetup p s = .ok t) :
    t.cfg = s.cfg ∧ t.shRx = s.shRx ∧ t.shRxFull = s.shRxFull ∧ t.value0 = s.value0 ∧ t.value1 = s.value1 ∧
    t.dpPos = s.dpPos ∧ t.keyIf = s.keyIf ∧ t.usbAddr = s.usbAddr ∧ t.bdEp0Out = s.bdEp0Out ∧ t.spiIf = s.spiIf
    ∧ t.busResetIf = s.busResetIf ∧ t.busOtherIf = s.busOtherIf ∧ t.timerIf = s.timerIf ∧ t.trnFifo = s.trnFifo
    ∧ t.hostLog = s.hostLog ∧ t.inputs = s.inputs := by
  simp only [dispatchSetup, stdDevice, stdInterface, stdEndpoint, classInterface, getDescriptorOnDevice, getDescDevice,
    getDescConfig, getDescString, getDescReport] at h
  repeat' split at h
  all_goals first
    | (have := startControlRead_frame _ _ h; simp [this])
    | (simp at h; subst h; simp)

/-- R172. -/
theorem onSetup_frame {s t : State} (h : onSetup s = .ok t) :
    t.cfg = s.cfg ∧ t.shRx = s.shRx ∧ t.shRxFull = s.shRxFull ∧ t.value0 = s.value0 ∧ t.value1 = s.value1 ∧
    t.dpPos = s.dpPos ∧ t.keyIf = s.keyIf ∧ t.usbAddr = s.usbAddr ∧ t.spiIf = s.spiIf ∧ t.busResetIf =
    s.busResetIf ∧ t.busOtherIf = s.busOtherIf ∧ t.timerIf = s.timerIf ∧ t.trnFifo = s.trnFifo ∧ t.hostLog =
    s.hostLog ∧ t.inputs = s.inputs := by
  simp only [onSetup] at h
  split at h <;> simp at h
  rename_i hd; subst h
  have := dispatchSetup_frame _ hd; simp [this]

/-- R260. -/
theorem route_frame (ep : BitVec 4) (d : Dir) {s t : State} (h : route ep d s = .ok t) :
    t.cfg = s.cfg ∧ t.shRx = s.shRx ∧ t.shRxFull = s.shRxFull ∧ t.dpPos = s.dpPos ∧ t.keyIf = s.keyIf ∧ t.spiIf
    = s.spiIf ∧ t.busResetIf = s.busResetIf ∧ t.busOtherIf = s.busOtherIf ∧ t.timerIf = s.timerIf ∧ t.trnFifo =
    s.trnFifo ∧ t.hostLog = s.hostLog ∧ t.inputs = s.inputs := by
  unfold route at h
  split at h
  · cases d <;> simp only at h
    · split at h
      · have := onSetup_frame h; simp [this]
      · have := onEp0Out_frame h; simp [this]
    · have := onEp0In_frame h; simp [this]
  · split at h
    · cases d <;> simp at h <;> subst h <;> simp
    · simp at h; subst h; simp

end Sys2Proof.Machine
end

