-- ==== Sys2Proof/Laws/Ownership.lean ====
section
/-! SUPPORT. The buffers of an admissible configuration (`spec/20_memory.md` R70) and what a CORE write can do
(R73). -/

namespace Sys2Proof.Machine

open Sys2Proof

/-- Two of the nine buffers, each at another place of the list, share no address. -/
theorem allApart_get {l : List (Nat × Nat)} (h : allApart l = true) {i j : Nat} {p q : Nat × Nat}
    (hi : l[i]? = some p) (hj : l[j]? = some q) (hij : i < j) : p.1 + p.2 ≤ q.1 ∨ q.1 + q.2 ≤ p.1 := by
  induction l generalizing i j with
  | nil => simp at hi
  | cons r rs ih =>
    simp only [allApart, Bool.and_eq_true, List.all_eq_true] at h
    obtain ⟨k, rfl⟩ : ∃ k, j = k + 1 := ⟨j - 1, by omega⟩
    cases i with
    | zero =>
      simp only [List.getElem?_cons_zero, Option.some.injEq] at hi
      subst hi
      have := h.1 q (List.mem_of_getElem? hj)
      simpa [rangesApart] using this
    | succ i => exact ih h.2 hi hj (by omega)

/-- R70: the nine buffers share no address. -/
theorem config_regions_apart (c : Config) {i j : Nat} {p q : Nat × Nat} (hi : c.regions[i]? = some p)
    (hj : c.regions[j]? = some q) (hij : i ≠ j) : p.1 + p.2 ≤ q.1 ∨ q.1 + q.2 ≤ p.1 := by
  have h := c.admissible
  simp only [RawConfig.admissible, RawConfig.addressesOk, Bool.and_eq_true] at h
  rcases Nat.lt_or_gt_of_ne hij with g | g
  · exact allApart_get h.1.1.1.1.1.2 hi hj g
  · exact (allApart_get h.1.1.1.1.1.2 hj hi g).symm

/-- R70: every buffer lies inside the 16-bit space. -/
theorem config_regions_inside (c : Config) {i : Nat} {p : Nat × Nat} (hi : c.regions[i]? = some p) :
    p.1 + p.2 ≤ 65536 := by
  have h := c.admissible
  simp only [RawConfig.admissible, RawConfig.addressesOk, Bool.and_eq_true, List.all_eq_true] at h
  simpa using h.1.1.1.1.1.1 p (List.mem_of_getElem? hi)

/-- The place of an endpoint's buffer in the list of the nine. -/
def epIndex : BdId → Nat
  | .ep0Out => 5
  | .ep0In => 6
  | .ep1Out => 7
  | .ep1In => 8

/-- The list of the nine buffers holds an endpoint's buffer at its place. -/
theorem regions_epIndex (c : Config) (e : BdId) : c.regions[epIndex e]? = some (epBuffer c e) := by
  cases e <;> rfl

/-- R70: an endpoint's buffer lies inside the 16-bit space. -/
theorem epBuffer_inside (c : Config) (e : BdId) : (epBuffer c e).1 + (epBuffer c e).2 ≤ 65536 :=
  config_regions_inside c (regions_epIndex c e)

/-- R70: an endpoint's buffer shares no address with another of the nine buffers. -/
theorem epBuffer_apart (c : Config) (e : BdId) {i : Nat} {p : Nat × Nat} (hi : c.regions[i]? = some p)
    (h : i ≠ epIndex e) {a n : Nat} (ha : p.1 ≤ a) (hn : a + n ≤ p.1 + p.2) :
    (epBuffer c e).1 + (epBuffer c e).2 ≤ a ∨ a + n ≤ (epBuffer c e).1 := by
  have := config_regions_apart c hi (regions_epIndex c e) h
  omega

/-- The test of R73 in words: the range is not empty, and the SIE owns a descriptor whose buffer shares an
address with it. -/
theorem sieOwnsRange_iff (s : State) (a n : Nat) :
    sieOwnsRange s a n = true ↔ n ≠ 0 ∧ ∃ e, (s.bd e).own = .sie ∧
      ¬((epBuffer s.cfg e).1 + (epBuffer s.cfg e).2 ≤ a ∨ a + n ≤ (epBuffer s.cfg e).1) := by
  simp only [sieOwnsRange, Bool.and_eq_true, decide_eq_true_eq, List.any_cons, List.any_nil, Bool.or_eq_true,
    Bool.or_false, beq_iff_eq, Bool.not_eq_true', rangesApart, ← Bool.not_eq_true]
  refine and_congr_right fun _ => ⟨?_, ?_⟩
  · rintro (h | h | h | h)
    · exact ⟨.ep0Out, h⟩
    · exact ⟨.ep0In, h⟩
    · exact ⟨.ep1Out, h⟩
    · exact ⟨.ep1In, h⟩
  · rintro ⟨e, h⟩
    cases e
    · exact .inl h
    · exact .inr (.inl h)
    · exact .inr (.inr (.inl h))
    · exact .inr (.inr (.inr h))

/-- No SIE-owned buffer shares an address with the range. -/
theorem sieOwnsRange_eq_false {s : State} {a n : Nat} (h : ∀ e, (s.bd e).own = .sie →
    (epBuffer s.cfg e).1 + (epBuffer s.cfg e).2 ≤ a ∨ a + n ≤ (epBuffer s.cfg e).1) :
    sieOwnsRange s a n = false := by
  rw [← Bool.not_eq_true, sieOwnsRange_iff]
  rintro ⟨-, e, he, hn⟩
  exact hn (h e he)

/-- The SIE owns no byte of a buffer that is no endpoint's (regions 0 to 4: the SPI buffers, the sink). -/
theorem sieOwnsRange_driver (s : State) {i : Nat} {p : Nat × Nat} (hi : s.cfg.regions[i]? = some p) (h : i < 5)
    {a n : Nat} (ha : p.1 ≤ a) (hn : a + n ≤ p.1 + p.2) : sieOwnsRange s a n = false :=
  sieOwnsRange_eq_false fun e _ => epBuffer_apart s.cfg e hi (by cases e <;> simp only [epIndex] <;> omega) ha hn

/-- A range inside a range of which the SIE owns nothing. -/
theorem sieOwnsRange_inside {s : State} {a n b k : Nat} (h : sieOwnsRange s a n = false) (ha : a ≤ b)
    (hk : b + k ≤ a + n) : sieOwnsRange s b k = false := by
  rw [← Bool.not_eq_true, sieOwnsRange_iff] at h ⊢
  rintro ⟨h0, e, he, hn⟩
  exact h ⟨by omega, e, he, by omega⟩

/-- The CPU owns every byte of the buffer of a descriptor it owns. -/
theorem sieOwnsRange_endpoint (s : State) (e : BdId) (hown : (s.bd e).own = .cpu) {a n : Nat}
    (ha : (epBuffer s.cfg e).1 ≤ a) (hn : a + n ≤ (epBuffer s.cfg e).1 + (epBuffer s.cfg e).2) :
    sieOwnsRange s a n = false :=
  sieOwnsRange_eq_false fun e' he' =>
    epBuffer_apart s.cfg e' (regions_epIndex s.cfg e) (by
      rintro h
      have : e = e' := by cases e <;> cases e' <;> simp [epIndex] at h <;> rfl
      subst this; rw [hown] at he'; cases he') ha hn

/-- The ownership of a range depends on the descriptors and the configuration only. -/
theorem sieOwnsRange_congr {s t : State} (hc : t.cfg = s.cfg) (hb : ∀ e, (t.bd e).own = (s.bd e).own) (a n : Nat) :
    sieOwnsRange t a n = sieOwnsRange s a n := by
  rw [Bool.eq_iff_iff, sieOwnsRange_iff, sieOwnsRange_iff, hc]
  simp only [hb]

/-- Everything a CORE write can do (R62, R73, log 12): store the bytes, or record `BD_OWNERSHIP`. -/
theorem coreWrite_cases (a : Nat) (bs : List Byte) (s : State) :
    (sieOwnsRange s a bs.length = false ∧ coreWrite a bs s = { s with ram := s.ram.setAll a bs }) ∨
    (sieOwnsRange s a bs.length = true ∧ coreWrite a bs s = raiseModelFault .bdOwnership s) := by
  cases h : sieOwnsRange s a bs.length
  · exact .inl ⟨rfl, by simp [coreWrite, h]⟩
  · exact .inr ⟨rfl, by simp [coreWrite, h]⟩

/-- A CORE write the CPU may make. -/
theorem coreWrite_cpu {a : Nat} {bs : List Byte} {s : State} (h : sieOwnsRange s a bs.length = false) :
    coreWrite a bs s = { s with ram := s.ram.setAll a bs } := by
  simp [coreWrite, h]

/-- R73: a byte of an SIE-owned buffer survives every CORE write. -/
theorem coreWrite_keeps_sie_buffer {s : State} {e : BdId} (h : (s.bd e).own = .sie) {x : Nat}
    (hx : (epBuffer s.cfg e).1 ≤ x) (hx2 : x < (epBuffer s.cfg e).1 + (epBuffer s.cfg e).2) (a : Nat)
    (bs : List Byte) : (coreWrite a bs s).ram.read? x = s.ram.read? x := by
  rcases coreWrite_cases a bs s with ⟨hf, hw⟩ | ⟨-, hw⟩
  · rw [hw]
    refine Memory.read?_setAll_outside _ ?_
    by_contra hcon
    have : sieOwnsRange s a bs.length = true := (sieOwnsRange_iff _ _ _).2 ⟨by omega, e, h, by omega⟩
    rw [hf] at this; cases this
  · rw [hw]; rfl

/-- A CORE write inside the space keeps the canonical form. -/
theorem coreWrite_wf {a : Nat} {bs : List Byte} {s : State} (hm : s.ram.wf = true) (ha : a + bs.length ≤ 65536) :
    (coreWrite a bs s).ram.wf = true := by
  rcases coreWrite_cases a bs s with ⟨-, hw⟩ | ⟨-, hw⟩
  · rw [hw]; exact Memory.wf_setAll hm ha
  · rw [hw]; exact hm

/-- Everything a CORE read can leave (R53, log 3, 25): nothing, or one `UNWRITTEN_READ` and the draws counted. -/
theorem afterRead_cases (a n : Nat) (s : State) :
    (touchesUnwritten s.ram a n = false ∧ afterRead a n s = s) ∨
    (touchesUnwritten s.ram a n = true ∧
      afterRead a n s = { raiseModelFault .unwrittenRead s with draws := s.draws + n }) := by
  cases h : touchesUnwritten s.ram a n
  · exact .inl ⟨rfl, by simp [afterRead, h]⟩
  · exact .inr ⟨rfl, by simp [afterRead, h]⟩

/-- The test of R53 in words. -/
theorem touchesUnwritten_iff (m : Memory) (a n : Nat) :
    touchesUnwritten m a n = true ↔ ∃ k, k < n ∧ m.read? (a + k) = none := by
  simp [touchesUnwritten, List.any_eq_true]

/-- A read of written bytes leaves the state as it is. -/
theorem afterRead_written {s : State} {a n : Nat} (h : ∀ k, k < n → (s.ram.read? (a + k)).isSome) :
    afterRead a n s = s := by
  rcases afterRead_cases a n s with ⟨-, e⟩ | ⟨ht, -⟩
  · exact e
  · obtain ⟨k, hk, hn⟩ := (touchesUnwritten_iff _ _ _).1 ht
    have := h k hk
    rw [hn] at this; cases this

/-- A CORE read of bytes the CPU owns (R301). -/
theorem afterCoreRead_cpu {s : State} {a n : Nat} (h : sieOwnsRange s a n = false) :
    afterCoreRead a n s = afterRead a n s := by
  simp [afterCoreRead, h]

/-- A CORE read that touches an SIE-owned buffer: `BD_OWNERSHIP` first, then what any read leaves (R301, log 12). -/
theorem afterCoreRead_sie {s : State} {a n : Nat} (h : sieOwnsRange s a n = true) :
    afterCoreRead a n s = afterRead a n (raiseModelFault .bdOwnership s) := by
  simp [afterCoreRead, h]

/-- A CORE read of written bytes the CPU owns leaves the state as it is. -/
theorem afterCoreRead_written {s : State} {a n : Nat} (h : sieOwnsRange s a n = false)
    (hw : ∀ k, k < n → (s.ram.read? (a + k)).isSome) : afterCoreRead a n s = s := by
  rw [afterCoreRead_cpu h, afterRead_written hw]

/-- A field of a descriptor the CPU owns, read (R36). -/
theorem readField_cpu {s : State} {e : BdId} (h : (s.bd e).own = .cpu) : readField e s = s := by
  simp [readField, h]

/-- A field of a descriptor the SIE owns, read: `BD_OWNERSHIP` (R301, log 12). -/
theorem readField_sie {s : State} {e : BdId} (h : (s.bd e).own = .sie) :
    readField e s = raiseModelFault .bdOwnership s := by
  simp [readField, h]

/-- A read returns as many bytes as it asks for. -/
@[simp] theorem readBytes_length (s : State) (a n : Nat) : (readBytes s a n).length = n := by
  simp [readBytes]

/-- R61: the byte a read returns at offset `k`; a byte without a value is the draw of its own index. -/
theorem readBytes_get (s : State) (a : Nat) {n k : Nat} (h : k < n) :
    (readBytes s a n)[k]? = some ((s.ram.read? (a + k)).getD (Config.freeByte (s.draws + k))) := by
  simp [readBytes, List.getElem?_map, List.getElem?_range h]

/-- A read depends on memory and the draw counter only. -/
theorem readBytes_congr {s t : State} (hm : t.ram = s.ram) (hd : t.draws = s.draws) (a n : Nat) :
    readBytes t a n = readBytes s a n := by
  simp only [readBytes, hm, hd]

end Sys2Proof.Machine
end

