-- ==== Sys2Proof/Laws/Engine.lean ====
section
/-! SUPPORT. The SPI engine's operations: everything `StartExchange` (`spec/40_spi_engine.md` R120) can do, and the
requests of the driver. -/

namespace Sys2Proof.Machine

open Sys2Proof

/-- R120: when a request fails no check. -/
theorem startFailures_nil (len : Byte) (s : State) :
    startFailures len s = [] ↔ s.spiActive = false ∧ len ≠ 0 ∧ s.shRxFull = false ∧ len.toNat % 2 = 0 := by
  simp only [startFailures, List.append_eq_nil_iff]
  split_ifs <;> simp_all

/-- A written byte the CPU owns, sent (R27). -/
theorem sendByte_written {s : State} {a : Nat} {b : Byte} (ho : sieOwnsRange s a 1 = false)
    (h : s.ram.read? a = some b) :
    sendByte a s = { s with shTx := b, shBusy := true, trace := s.trace ++ [.tx b] } := by
  have h1 : afterCoreRead a 1 s = s := afterCoreRead_written ho fun k hk => by
    obtain rfl : k = 0 := by omega
    simp [h]
  simp [sendByte, h1, readBytes, h, shifterWrite, emit, List.range_succ]

/-- A byte the CPU owns and nothing has written, sent: a draw, recorded (R53). -/
theorem sendByte_unwritten {s : State} {a : Nat} (ho : sieOwnsRange s a 1 = false) (h : s.ram.read? a = none) :
    sendByte a s = { s with
      shTx := Config.freeByte s.draws
      shBusy := true
      draws := s.draws + 1
      faults := s.faults ++ [.model .unwrittenRead]
      trace := s.trace ++ [.modelFault .unwrittenRead, .tx (Config.freeByte s.draws)] } := by
  have h1 : touchesUnwritten s.ram a 1 = true := (touchesUnwritten_iff _ _ _).2 ⟨0, by omega, h⟩
  simp [sendByte, afterCoreRead_cpu ho, afterRead, h1, readBytes, h, shifterWrite, emit, raiseModelFault, List.range_succ]

/-- R120, an accepted request whose first byte is written. -/
theorem startExchange_accepted {s : State} {buf : Word16} {len : Byte} {b : Byte} (cb : Callback)
    (hs : s.spiActive = false) (hl : len ≠ 0) (hr : s.shRxFull = false) (he : len.toNat % 2 = 0)
    (ho : sieOwnsRange s buf.toNat 1 = false) (hb : s.ram.read? buf.toNat = some b) :
    startExchange buf len cb s = { s with
      spiActive := true
      spiPtr := buf
      spiRemaining := len
      spiCallback := cb
      spiCs := true
      shTx := b
      shBusy := true
      trace := s.trace ++ [.cs true, .tx b] } := by
  have h : startFailures len s = [] := (startFailures_nil len s).2 ⟨hs, hl, hr, he⟩
  simp only [startExchange, h, ↓reduceIte, startAccepted]
  have ho' : sieOwnsRange (setCs true
      { s with spiActive := true, spiPtr := buf, spiRemaining := len, spiCallback := cb }) buf.toNat 1 = false :=
    (sieOwnsRange_congr rfl (fun e => by cases e <;> rfl) _ _).trans ho
  rw [sendByte_written ho' (b := b) (by simpa using hb)]
  simp [setCs, emit]

/-- R120, an accepted request whose first byte nothing has written. -/
theorem startExchange_accepted_unwritten {s : State} {buf : Word16} {len : Byte} (cb : Callback)
    (hs : s.spiActive = false) (hl : len ≠ 0) (hr : s.shRxFull = false) (he : len.toNat % 2 = 0)
    (ho : sieOwnsRange s buf.toNat 1 = false) (hb : s.ram.read? buf.toNat = none) :
    startExchange buf len cb s = { s with
      spiActive := true
      spiPtr := buf
      spiRemaining := len
      spiCallback := cb
      spiCs := true
      shTx := Config.freeByte s.draws
      shBusy := true
      draws := s.draws + 1
      faults := s.faults ++ [.model .unwrittenRead]
      trace := s.trace ++ [.cs true, .modelFault .unwrittenRead, .tx (Config.freeByte s.draws)] } := by
  have h : startFailures len s = [] := (startFailures_nil len s).2 ⟨hs, hl, hr, he⟩
  simp only [startExchange, h, ↓reduceIte, startAccepted]
  have ho' : sieOwnsRange (setCs true
      { s with spiActive := true, spiPtr := buf, spiRemaining := len, spiCallback := cb }) buf.toNat 1 = false :=
    (sieOwnsRange_congr rfl (fun e => by cases e <;> rfl) _ _).trans ho
  rw [sendByte_unwritten ho' (by simpa using hb)]
  simp [setCs, emit]

/-- The trace entry of a cause. -/
def causeEvent : Cause → Event
  | .fatal c => .fatal c
  | .model c => .modelFault c

/-- A cause of the fatal signal. -/
def isFatal : Cause → Bool
  | .fatal _ => true
  | .model _ => false

/-- R250, R253, R267: every cause of the list raised in its order. -/
theorem raiseAll_eq (cs : List Cause) (s : State) :
    raiseAll cs s = { s with
      fatal := s.fatal || cs.any isFatal
      faults := s.faults ++ cs
      trace := s.trace ++ cs.map causeEvent } := by
  induction cs generalizing s with
  | nil => simp [raiseAll]
  | cons c cs ih =>
    rw [raiseAll, ih]
    cases c <;> simp [raise, raiseFatal, raiseModelFault, emit, isFatal, causeEvent]

/-- R120, a request that fails a check. -/
theorem startExchange_rejected {s : State} {len : Byte} (buf : Word16) (cb : Callback)
    (h : startFailures len s ≠ []) : startExchange buf len cb s = raiseAll (startFailures len s) s := by
  simp [startExchange, h]

/-- What R120 raises at a request of a positive even length. -/
theorem startFailures_even {s : State} {len : Byte} (hl : len ≠ 0) (he : len.toNat % 2 = 0) :
    startFailures len s = (if s.spiActive then [.fatal .spiBusy] else []) ++
      (if s.shRxFull then [.fatal .spiStaleRx] else []) := by
  simpa [startFailures, he] using hl

/-- Everything `StartExchange` can do to the engine (R120, R126): nothing, or take the slot with one byte in
flight. -/
theorem startExchange_engine (buf : Word16) (len : Byte) (cb : Callback) (s : State) :
    (s.spiActive = false ∧ len ≠ 0 ∧ s.shRxFull = false ∧ (startExchange buf len cb s).spiActive = true ∧
      (startExchange buf len cb s).spiRemaining = len ∧ (startExchange buf len cb s).spiCs = true ∧
      (startExchange buf len cb s).shBusy = true) ∨
    ((startExchange buf len cb s).spiActive = s.spiActive ∧
      (startExchange buf len cb s).spiRemaining = s.spiRemaining ∧
      (startExchange buf len cb s).spiCs = s.spiCs ∧ (startExchange buf len cb s).shBusy = s.shBusy) := by
  by_cases h : startFailures len s = []
  · obtain ⟨hs, hl, hr, he⟩ := (startFailures_nil len s).1 h
    refine .inl ⟨hs, hl, hr, ?_⟩
    simp [startExchange, h, startAccepted, sendByte, shifterWrite, setCs, emit]
  · rw [startExchange_rejected buf cb h]
    exact .inr ⟨by simp, by simp, by simp, by simp⟩

end Sys2Proof.Machine
end

