-- ==== Sys2Proof/Laws/Driver.lean ====
section
/-! SUPPORT. The driver's buffers and requests (`spec/41_display_keyscan.md`, `spec/30_encoding.md` R88, R94,
R95): what their bytes are, and what a request on freshly written bytes does. -/

namespace Sys2Proof.Machine

open Sys2Proof

/-- Bytes written with `setAll` stand where they were written and nowhere else. -/
theorem storedAt_setAll (s : State) (a : Nat) (bs : List Byte) : StoredAt s a bs (s.ram.setAll a bs) :=
  ⟨fun _ hk => Memory.read?_setAll_inside _ _ hk, fun _ hx => Memory.read?_setAll_outside _ hx⟩

/-- The test of R73 and R301 in the terms of the statements. -/
theorem coreMayAccess_iff (s : State) (a n : Nat) : coreMayAccess s a n ↔ sieOwnsRange s a n = false := by
  have hl (e : BdId) : 0 < (epBuffer s.cfg e).2 := by cases e <;> simp [epBuffer, pEp0Max, pReportLen]
  rw [← Bool.not_eq_true, sieOwnsRange_iff]
  constructor
  · rintro h ⟨h0, e, he, hn⟩
    have := hl e
    exact h e (max a (epBuffer s.cfg e).1) he (by omega) (by omega) (by omega)
  · intro h e x he h1 h2 hx
    exact h ⟨by omega, e, he, by omega⟩

/-- Everything a CORE read records (R53, R301). -/
theorem afterCoreRead_causes (a n : Nat) (s : State) : ∃ causes, ReadCauses s a n causes ∧
    afterCoreRead a n s = { s with
      draws := if touchesUnwritten s.ram a n then s.draws + n else s.draws
      faults := s.faults ++ causes.map .model
      trace := s.trace ++ causes.map .modelFault } := by
  refine ⟨(if sieOwnsRange s a n then [.bdOwnership] else []) ++
    (if touchesUnwritten s.ram a n then [.unwrittenRead] else []), ⟨_, _, rfl, ?_⟩, ?_⟩
  · rw [coreMayAccess_iff]
    refine ⟨fun h => by simp [h], fun h => by simp [h], fun h => if_neg fun hu => ?_, fun h => ?_⟩
    · obtain ⟨k, hk, hn⟩ := (touchesUnwritten_iff _ _ _).1 hu
      exact h k hk hn
    · rw [if_pos ((touchesUnwritten_iff _ _ _).2 h)]
  · cases ho : sieOwnsRange s a n <;> cases hu : touchesUnwritten s.ram a n <;>
      simp [afterCoreRead, afterRead, raiseModelFault, emit, ho, hu]

/-- A request of a positive even length on a ready engine whose first byte is written and the CPU's. -/
theorem request_ready {s : State} {buf : Word16} {len : Byte} {b : Byte} (cb : Callback) (h : engineReady s)
    (hl : len ≠ 0) (he : len.toNat % 2 = 0) (ho : sieOwnsRange s buf.toNat 1 = false)
    (hb : s.ram.read? buf.toNat = some b) :
    startExchange buf len cb s = exchangeStarted buf len cb b s := by
  rw [startExchange_accepted cb h.1 hl h.2 he ho hb]; rfl

/-- A request of a positive even length on an engine that is not ready is lost. -/
theorem request_lost {s : State} {len : Byte} (buf : Word16) (cb : Callback) (h : ¬engineReady s)
    (hl : len ≠ 0) (he : len.toNat % 2 = 0) :
    startExchange buf len cb s = signalled (slotFailures s) s := by
  have hf : startFailures len s ≠ [] := by
    rw [Ne, startFailures_nil]; intro h'; exact h ⟨h'.1, h'.2.2.1⟩
  rw [startExchange_rejected buf cb hf, raiseAll_eq, startFailures_even hl he]
  simp only [signalled, slotFailures]
  split_ifs <;> simp [causeEvent, isFatal]

/-- A request on a buffer the CORE has just written, on a ready engine. -/
theorem write_request_ready {s : State} {a : Nat} {buf : Word16} {len b : Byte} {bs : List Byte} (cb : Callback)
    (hw : sieOwnsRange s a (b :: bs).length = false) (ha : buf.toNat = a) (h : engineReady s) (hl : len ≠ 0)
    (he : len.toNat % 2 = 0) :
    startExchange buf len cb (coreWrite a (b :: bs) s) =
      exchangeStarted buf len cb b { s with ram := s.ram.setAll a (b :: bs) } := by
  rw [coreWrite_cpu hw]
  have ho := sieOwnsRange_inside hw (b := buf.toNat) (k := 1) (by omega) (by simp; omega)
  refine request_ready cb h hl he ((sieOwnsRange_congr rfl (fun e => by cases e <;> rfl) _ _).trans ho) ?_
  have := (storedAt_setAll s a (b :: bs)).1 0 (by simp)
  simpa [ha] using this

/-- A request on a buffer the CORE has just written, on an engine that is not ready. -/
theorem write_request_lost {s : State} {a : Nat} {len : Byte} {bs : List Byte} (buf : Word16) (cb : Callback)
    (hw : sieOwnsRange s a bs.length = false) (h : ¬engineReady s) (hl : len ≠ 0) (he : len.toNat % 2 = 0) :
    startExchange buf len cb (coreWrite a bs s) =
      signalled (slotFailures s) { s with ram := s.ram.setAll a bs } := by
  rw [coreWrite_cpu hw]
  exact request_lost buf cb h hl he

/-- The bytes of a frame, the high byte first (R63, R83). -/
theorem frameBytes_append (x y : Byte) : frameBytes (x ++ y) = [x, y] := by
  have h1 : BitVec.extractLsb' 8 8 (x ++ y) = x := BitVec.extractLsb'_append_eq_left
  have h2 : BitVec.extractLsb' 0 8 (x ++ y) = y := BitVec.extractLsb'_append_eq_right
  exact congrArg₂ (fun u v : Byte => [u, v]) h1 h2

/-- The bytes of a write frame (R83). -/
theorem frameBytes_write (reg : BitVec 7) (data : Byte) : frameBytes (writeFrame reg data) = [0#1 ++ reg, data] :=
  frameBytes_append (0#1 ++ reg) data

/-- The bytes of a read frame (R83). -/
theorem frameBytes_read (reg : BitVec 7) : frameBytes (readFrame reg) = [1#1 ++ reg, 0] :=
  frameBytes_append (1#1 ++ reg) 0

/-- The initialization bytes (R141). -/
theorem initBytes_eq (c : Config) : initBytes c =
    [0#1 ++ c.regScanLimit, c.initScanLimit, 0#1 ++ c.regIntensity, c.initIntensity, 0#1 ++ c.regDecode, c.initDecode,
     0#1 ++ c.regConfig, c.initConfig, 0#1 ++ c.regPortConfig, c.initPortConfig] := by
  simp only [initBytes, frameBytes_write, List.cons_append, List.nil_append]

/-- The termination bytes (R142). -/
theorem termBytes_eq (c : Config) :
    termBytes c = [0#1 ++ c.regConfig, c.termConfig, 0#1 ++ c.regKeyMask, c.termKeyMask] := by
  simp only [termBytes, frameBytes_write, List.cons_append, List.nil_append]

/-- The key-read bytes (R144). -/
theorem keyBytes_eq (c : Config) : keyBytes c = [1#1 ++ c.regKeyDebounced, 0] := frameBytes_read _

/-- The twelve bytes of one display (R143). -/
theorem displayFrames_eq (c : Config) (dp : DigitId) (n : Nat) (d : DisplayId) (v : StoredValue) :
    displayFrames c dp n d v =
      [0#1 ++ c.digitRegister d 0, digitByte c dp n v 0, 0#1 ++ c.digitRegister d 1, digitByte c dp n v 1,
       0#1 ++ c.digitRegister d 2, digitByte c dp n v 2, 0#1 ++ c.digitRegister d 3, digitByte c dp n v 3,
       0#1 ++ c.digitRegister d 4, digitByte c dp n v 4, 0#1 ++ c.digitRegister d 5, digitByte c dp n v 5] := by
  simp only [displayFrames, frameBytes_write]
  rfl

/-- The display bytes are 24 (R143). -/
@[simp] theorem dispBytes_length (c : Config) (dp : DigitId) (n : Nat) (v0 v1 : StoredValue) :
    (dispBytes c dp n v0 v1).length = 24 := by
  simp [dispBytes, displayFrames_eq]

/-- The CORE may read and write the buffer of its own transactions and the sink: the five regions of R31 and R34. -/
theorem coreMayAccess_driver (s : State) {i : Nat} {p : Nat × Nat} (hi : s.cfg.regions[i]? = some p) (h : i < 5)
    {a n : Nat} (ha : p.1 ≤ a) (hn : a + n ≤ p.1 + p.2) : coreMayAccess s a n :=
  (coreMayAccess_iff s a n).2 (sieOwnsRange_driver s hi h ha hn)

end Sys2Proof.Machine
end

