-- ==== Sys2Proof/Laws/Control.lean ====
section
/-! SUPPORT. The shared operations of the control endpoint in the terms of the statements: on a descriptor the
CPU owns each is one state update. -/

namespace Sys2Proof.Machine

open Sys2Proof

/-- R179. -/
theorem statusIn_eq {s : State} (h : s.bdEp0In.own = .cpu) :
    statusIn s = armedEp0In 0 1 { s with ctlStatus := .statusIn } := by
  simp [statusIn, arm_cpu _ _ _ (show (s.bd .ep0In).own = .cpu from h), armedEp0In, State.setBd, State.bd, emit]

/-- R198. -/
theorem armEp0Out_eq {s : State} (h : s.bdEp0Out.own = .cpu) : armEp0Out s = armedEp0Out (expectedOutToggle s) s := by
  simp [armEp0Out, arm_cpu _ _ _ (show (s.bd .ep0Out).own = .cpu from h), armedEp0Out, State.setBd, State.bd, emit,
    pEp0Max, expectedOutToggle, ep0OutToggle]

/-- R171. -/
theorem cancelTransfer_eq (s : State) : cancelTransfer s = transferCancelled s := by
  unfold cancelTransfer transferCancelled
  split <;> simp_all [reclaim, State.setBd, State.bd, emit, reclaimed]

/-- `EP0_IN` stalled while the CPU owns it (R192). -/
theorem stall_ep0In {s : State} (h : s.bdEp0In.own = .cpu) : stall .ep0In s = stalledEp0In s := by
  simp [stall, State.bd, h, stalledEp0In, emit, State.setBd]

/-- `SendChunk` inside the table (R193). -/
theorem sendChunk_ok {s : State}
    (h : s.ctlSrcOff.toNat + min s.ctlRemaining.toNat 32 ≤ (s.cfg.rom s.ctlSrcTable).length) :
    sendChunk s = .ok (armChunk
      (((s.cfg.rom s.ctlSrcTable).drop s.ctlSrcOff.toNat).take (min s.ctlRemaining.toNat 32)) s) := by
  have hr : romRead s.cfg s.ctlSrcTable s.ctlSrcOff.toNat (min s.ctlRemaining.toNat 32) = .ok _ := if_pos h
  simp only [sendChunk, pEp0Max]
  rw [hr]

/-- A chunk of at most 32 bytes, armed (R193). -/
theorem armChunk_eq {s : State} {bytes : List Byte} (hc : s.bdEp0In.own = .cpu) (hl : bytes.length ≤ 32) :
    armChunk bytes s = armedEp0In (BitVec.ofNat 10 bytes.length) s.ctlToggle { s with
      ram := s.ram.setAll s.cfg.addrEp0In.toNat bytes
      ctlSrcOff := s.ctlSrcOff + BitVec.ofNat 16 bytes.length
      ctlRemaining := s.ctlRemaining - BitVec.ofNat 16 bytes.length
      ctlToggle := s.ctlToggle ^^^ 1 } := by
  have hw : sieOwnsRange s s.cfg.addrEp0In.toNat bytes.length = false :=
    sieOwnsRange_endpoint s .ep0In hc (le_refl _) (by simp [epBuffer, pEp0Max]; omega)
  have : coreWrite s.cfg.addrEp0In.toNat bytes s = { s with ram := s.ram.setAll s.cfg.addrEp0In.toNat bytes } := by
    simp [coreWrite, hw]
  simp [armChunk, this, arm, State.bd, hc, armedEp0In, emit, State.setBd]

/-- A table is read from its start, so `StartControlRead` always completes (R178). -/
theorem startControlRead_some (table : DescId) (wLength : Word16) (s : State) :
    ∃ t, startControlRead table wLength s = .ok t := by
  have hm : (BitVec.ofNat 16 (min wLength.toNat (s.cfg.rom table).length)).toNat =
      min wLength.toNat (s.cfg.rom table).length := by
    simp only [BitVec.toNat_ofNat]
    exact Nat.mod_eq_of_lt (by have := wLength.isLt; omega)
  rw [startControlRead, sendChunk_ok (by simp only [hm]; simp)]
  exact ⟨_, rfl⟩

end Sys2Proof.Machine
end

