-- ==== Sys2Proof/Laws/PerInstr.lean ====
section
/-! SUPPORT. The family `TableRow`: the words of every instruction are in the format of its row of
`spec/opcode_table.json` and match its pattern under its mask. -/

namespace Sys2Proof.Laws

open Sys2Proof

/-- The format column of `spec/opcode_table.json`. -/
inductive Format where
  | evt
  | call
  | spi16
  | setup
  | report
  deriving DecidableEq, Repr

/-- A row's format, mask and match; of a setup row they apply to the first four bytes (`spec/30_encoding.md`
R92). -/
structure Row where
  format : Format
  mask : BitVec 32
  pattern : BitVec 32
  deriving DecidableEq, Repr

/-- The format a packet is in. -/
def formatOf : Packet → Format
  | .evt _ => .evt
  | .call _ => .call
  | .spi16 _ => .spi16
  | .setup _ => .setup
  | .reportIn _ => .report
  | .reportOut _ => .report

/-- The low 32 bits of a packet. -/
def lowBits : Packet → BitVec 32
  | .evt w => w.setWidth 32
  | .call w => w.setWidth 32
  | .spi16 w => w.setWidth 32
  | .setup w => w.setWidth 32
  | .reportIn w => w.setWidth 32
  | .reportOut w => w.setWidth 32

/-- An instruction's row of `spec/opcode_table.json`. -/
def rowOf : Instr → Row
  | .evSpiByteComplete => ⟨.evt, 0xFFF, 0x0⟩
  | .evKeyIrq => ⟨.evt, 0xFFF, 0x200⟩
  | .evUsbEp0Setup => ⟨.evt, 0xFFF, 0x40D⟩
  | .evUsbEp0Out => ⟨.evt, 0xFFF, 0x401⟩
  | .evUsbEp0In => ⟨.evt, 0xFFF, 0x419⟩
  | .evUsbEp1Out => ⟨.evt, 0xFFF, 0x421⟩
  | .evUsbEp1In => ⟨.evt, 0xFFF, 0x439⟩
  | .evUsbBusReset => ⟨.evt, 0xFFF, 0x600⟩
  | .evUsbBusOther => ⟨.evt, 0xFFF, 0x601⟩
  | .evTimerTick => ⟨.evt, 0xFFF, 0x800⟩
  | .evUsbBadKind _ _ _ => ⟨.evt, 0xFC0, 0x400⟩
  | .evUsbUnknownEp _ _ _ => ⟨.evt, 0xE00, 0x400⟩
  | .evRefused _ _ _ _ => ⟨.evt, 0x0, 0x0⟩
  | .callStartExchange _ _ _ => ⟨.call, 0xFF, 0x1⟩
  | .callInvokeCallback _ => ⟨.call, 0xFF, 0x2⟩
  | .callInitialize => ⟨.call, 0xFF, 0x10⟩
  | .callInitDone => ⟨.call, 0xFF, 0x11⟩
  | .callTerminate => ⟨.call, 0xFF, 0x12⟩
  | .callDisplayValues _ _ => ⟨.call, 0xFF, 0x13⟩
  | .callServiceInterrupt => ⟨.call, 0xFF, 0x14⟩
  | .callKeyReadDone => ⟨.call, 0xFF, 0x15⟩
  | .callEp1Enable => ⟨.call, 0xFF, 0x20⟩
  | .callEp1Disable => ⟨.call, 0xFF, 0x21⟩
  | .callNotifyNewValues => ⟨.call, 0xFF, 0x22⟩
  | .callFatal _ => ⟨.call, 0xFF, 0x30⟩
  | .callModelFault _ => ⟨.call, 0xFF, 0x31⟩
  | .wrScanLimit => ⟨.spi16, 0x8000, 0x0⟩
  | .wrIntensity => ⟨.spi16, 0x8000, 0x0⟩
  | .wrDecode => ⟨.spi16, 0x8000, 0x0⟩
  | .wrConfigNormal => ⟨.spi16, 0x8000, 0x0⟩
  | .wrPortConfig => ⟨.spi16, 0x8000, 0x0⟩
  | .wrConfigShutdown => ⟨.spi16, 0x8000, 0x0⟩
  | .wrKeyMaskOff => ⟨.spi16, 0x8000, 0x0⟩
  | .wrDigit _ _ _ => ⟨.spi16, 0x8000, 0x0⟩
  | .rdKeyDebounced => ⟨.spi16, 0x80FF, 0x8000⟩
  | .getDescriptorDevice _ _ _ => ⟨.setup, 0xFF00FFFF, 0x1000680⟩
  | .getDescriptorConfiguration _ _ _ => ⟨.setup, 0xFF00FFFF, 0x2000680⟩
  | .getDescriptorString _ _ _ => ⟨.setup, 0xFF00FFFF, 0x3000680⟩
  | .getDescriptorDeviceQualifier _ _ _ => ⟨.setup, 0xFF00FFFF, 0x6000680⟩
  | .getDescriptorOtherDevice _ _ _ _ => ⟨.setup, 0xFFFF, 0x680⟩
  | .getDescriptorReport _ _ _ => ⟨.setup, 0xFF00FFFF, 0x22000681⟩
  | .getDescriptorOtherInterface _ _ _ _ => ⟨.setup, 0xFFFF, 0x681⟩
  | .setAddress _ _ _ => ⟨.setup, 0xFFFF, 0x500⟩
  | .setConfiguration _ _ _ => ⟨.setup, 0xFFFF, 0x900⟩
  | .setInterface _ _ _ => ⟨.setup, 0xFFFF, 0xB01⟩
  | .hidSetReport _ _ _ => ⟨.setup, 0xFFFF, 0x921⟩
  | .hidSetIdle _ _ _ => ⟨.setup, 0xFFFF, 0xA21⟩
  | .hidGetReport _ _ _ => ⟨.setup, 0xFFFF, 0x1A1⟩
  | .unrecognized _ _ _ _ _ => ⟨.setup, 0x0, 0x0⟩
  | .hidReport _ _ => ⟨.report, 0x0, 0x0⟩
  | .hidReportDecode _ _ => ⟨.report, 0x0, 0x0⟩

/-- The statement of the family: format and pattern of the row, under every configuration. -/
def TableRow.Statement (i : Instr) : Prop :=
  ∀ c : Config, formatOf (encode c i) = (rowOf i).format ∧
    lowBits (encode c i) &&& (rowOf i).mask = (rowOf i).pattern

/-- The identifier of an `F_CALL` packet is its low byte. -/
theorem callWord_low (id : Byte) (ops : BitVec 48) :
    lowBits (.call (callWord id ops)) &&& 0xFF = id.setWidth 32 := by
  have h : lowBits (.call (callWord id ops)) = ops.setWidth 24 ++ id := by
    apply BitVec.eq_of_getLsbD_eq
    intro k hk
    simp only [lowBits, callWord, BitVec.getLsbD_setWidth, BitVec.getLsbD_append, hk]
    split_ifs <;> simp <;> omega
  have h2 : id.setWidth 32 = 0#24 ++ id := BitVec.setWidth_eq_append (by decide)
  rw [h, h2, show (0xFF : BitVec 32) = 0#24 ++ 0xFF#8 from rfl, BitVec.and_append]
  simp only [BitVec.and_zero, show (0xFF#8) = BitVec.allOnes 8 from rfl, BitVec.and_allOnes]

/-- The low 32 bits of a setup packet: request type, request code, value (R92). -/
theorem setup_low (bm br : Byte) (v idx len : Word16) : lowBits (setupOf bm br v idx len) = v ++ br ++ bm := by
  apply BitVec.eq_of_getLsbD_eq
  intro k hk
  simp only [lowBits, setupOf, SetupPacket.word, BitVec.getLsbD_setWidth, BitVec.getLsbD_append, hk]
  split_ifs <;> simp <;> omega

/-- A setup row with `wValue` free. -/
theorem setup_request (bm br : Byte) (v idx len : Word16) :
    lowBits (setupOf bm br v idx len) &&& 0xFFFF = 0#16 ++ br ++ bm := by
  rw [setup_low, show (0xFFFF : BitVec 32) = 0#16 ++ 0xFF#8 ++ 0xFF#8 from rfl, BitVec.and_append, BitVec.and_append]
  simp only [BitVec.and_zero, show (0xFF#8) = BitVec.allOnes 8 from rfl, BitVec.and_allOnes]

/-- A setup row with the selector `wValue[15:8]`. -/
theorem setup_selector (bm br ty lo : Byte) (idx len : Word16) :
    lowBits (setupOf bm br (ty ++ lo) idx len) &&& 0xFF00FFFF = (ty ++ 0#8) ++ br ++ bm := by
  rw [setup_low, show (0xFF00FFFF : BitVec 32) = (0xFF#8 ++ 0#8) ++ 0xFF#8 ++ 0xFF#8 from rfl, BitVec.and_append,
    BitVec.and_append, BitVec.and_append]
  simp only [BitVec.and_zero, show (0xFF#8) = BitVec.allOnes 8 from rfl, BitVec.and_allOnes]

/-- The high bit of a write frame is 0. -/
theorem writeFrame_low (reg : BitVec 7) (data : Byte) : lowBits (.spi16 (writeFrame reg data)) &&& 0x8000 = 0 := by
  rw [show (0x8000 : BitVec 32) = (0x8000#16).setWidth 32 from rfl, lowBits, ← BitVec.setWidth_and, writeFrame,
    show (0x8000#16) = 1#1 ++ 0#7 ++ 0#8 from rfl, BitVec.and_append, BitVec.and_append]
  simp

/-- The row of `EV_SPI_BYTE_COMPLETE`. -/
theorem TableRow.evSpiByteComplete : TableRow.Statement .evSpiByteComplete := fun c => ⟨rfl, by
  show (BitVec.setWidth 32 (evtWord 0 0 0 0)) &&& 0xFFF = 0x0; decide⟩

/-- The row of `EV_KEY_IRQ`. -/
theorem TableRow.evKeyIrq : TableRow.Statement .evKeyIrq := fun c => ⟨rfl, by
  show (BitVec.setWidth 32 (evtWord 1 0 0 0)) &&& 0xFFF = 0x200; decide⟩

/-- The row of `EV_USB_EP0_SETUP`. -/
theorem TableRow.evUsbEp0Setup : TableRow.Statement .evUsbEp0Setup := fun c => ⟨rfl, by
  show (BitVec.setWidth 32 (evtWord 2 0 0 kindSetup)) &&& 0xFFF = 0x40D; decide⟩

/-- The row of `EV_USB_EP0_OUT`. -/
theorem TableRow.evUsbEp0Out : TableRow.Statement .evUsbEp0Out := fun c => ⟨rfl, by
  show (BitVec.setWidth 32 (evtWord 2 0 0 kindOut)) &&& 0xFFF = 0x401; decide⟩

/-- The row of `EV_USB_EP0_IN`. -/
theorem TableRow.evUsbEp0In : TableRow.Statement .evUsbEp0In := fun c => ⟨rfl, by
  show (BitVec.setWidth 32 (evtWord 2 0 1 kindIn)) &&& 0xFFF = 0x419; decide⟩

/-- The row of `EV_USB_EP1_OUT`. -/
theorem TableRow.evUsbEp1Out : TableRow.Statement .evUsbEp1Out := fun c => ⟨rfl, by
  show (BitVec.setWidth 32 (evtWord 2 1 0 kindOut)) &&& 0xFFF = 0x421; decide⟩

/-- The row of `EV_USB_EP1_IN`. -/
theorem TableRow.evUsbEp1In : TableRow.Statement .evUsbEp1In := fun c => ⟨rfl, by
  show (BitVec.setWidth 32 (evtWord 2 1 1 kindIn)) &&& 0xFFF = 0x439; decide⟩

/-- The row of `EV_USB_BUS_RESET`. -/
theorem TableRow.evUsbBusReset : TableRow.Statement .evUsbBusReset := fun c => ⟨rfl, by
  show (BitVec.setWidth 32 (evtWord 3 0 0 0)) &&& 0xFFF = 0x600; decide⟩

/-- The row of `EV_USB_BUS_OTHER`. -/
theorem TableRow.evUsbBusOther : TableRow.Statement .evUsbBusOther := fun c => ⟨rfl, by
  show (BitVec.setWidth 32 (evtWord 3 0 0 1)) &&& 0xFFF = 0x601; decide⟩

/-- The row of `EV_TIMER_TICK`. -/
theorem TableRow.evTimerTick : TableRow.Statement .evTimerTick := fun c => ⟨rfl, by
  show (BitVec.setWidth 32 (evtWord 4 0 0 0)) &&& 0xFFF = 0x800; decide⟩

/-- The row of `EV_USB_BAD_KIND`. -/
theorem TableRow.evUsbBadKind (ep : BitVec 1) (dir : BitVec 1) (kind : BitVec 4) : TableRow.Statement (.evUsbBadKind ep dir kind) := by
  have h : ∀ (ep : BitVec 1) dir kind, (evtWord 2 (0#3 ++ ep) dir kind).setWidth 32 &&& 0xFC0 = 0x400#32 := by decide
  exact fun _ => ⟨rfl, h ep dir kind⟩

/-- The row of `EV_USB_UNKNOWN_EP`. -/
theorem TableRow.evUsbUnknownEp (ep : BitVec 4) (dir : BitVec 1) (kind : BitVec 4) : TableRow.Statement (.evUsbUnknownEp ep dir kind) := by
  have h : ∀ ep dir kind, (evtWord 2 ep dir kind).setWidth 32 &&& 0xE00 = 0x400#32 := by decide
  exact fun _ => ⟨rfl, h ep dir kind⟩

/-- The row of `EV_REFUSED`. -/
theorem TableRow.evRefused (src : BitVec 3) (ep : BitVec 4) (dir : BitVec 1) (kind : BitVec 4) : TableRow.Statement (.evRefused src ep dir kind) := fun _ => ⟨rfl, BitVec.and_zero⟩

/-- The row of `StartExchange`. -/
theorem TableRow.callStartExchange (buf : Word16) (len : Byte) (cb : Callback) : TableRow.Statement (.callStartExchange buf len cb) := fun _ => ⟨rfl, callWord_low _ _⟩

/-- The row of `InvokeCallback`. -/
theorem TableRow.callInvokeCallback (cb : Callback) : TableRow.Statement (.callInvokeCallback cb) := fun _ => ⟨rfl, callWord_low _ _⟩

/-- The row of `Initialize`. -/
theorem TableRow.callInitialize : TableRow.Statement .callInitialize := fun _ => ⟨rfl, callWord_low _ _⟩

/-- The row of `InitDone`. -/
theorem TableRow.callInitDone : TableRow.Statement .callInitDone := fun _ => ⟨rfl, callWord_low _ _⟩

/-- The row of `Terminate`. -/
theorem TableRow.callTerminate : TableRow.Statement .callTerminate := fun _ => ⟨rfl, callWord_low _ _⟩

/-- The row of `DisplayValues`. -/
theorem TableRow.callDisplayValues (v0 v1 : StoredValue) : TableRow.Statement (.callDisplayValues v0 v1) := fun _ => ⟨rfl, callWord_low _ _⟩

/-- The row of `ServiceInterrupt`. -/
theorem TableRow.callServiceInterrupt : TableRow.Statement .callServiceInterrupt := fun _ => ⟨rfl, callWord_low _ _⟩

/-- The row of `KeyReadDone`. -/
theorem TableRow.callKeyReadDone : TableRow.Statement .callKeyReadDone := fun _ => ⟨rfl, callWord_low _ _⟩

/-- The row of `Ep1Enable`. -/
theorem TableRow.callEp1Enable : TableRow.Statement .callEp1Enable := fun _ => ⟨rfl, callWord_low _ _⟩

/-- The row of `Ep1Disable`. -/
theorem TableRow.callEp1Disable : TableRow.Statement .callEp1Disable := fun _ => ⟨rfl, callWord_low _ _⟩

/-- The row of `NotifyNewValues`. -/
theorem TableRow.callNotifyNewValues : TableRow.Statement .callNotifyNewValues := fun _ => ⟨rfl, callWord_low _ _⟩

/-- The row of `Fatal`. -/
theorem TableRow.callFatal (cause : FatalCause) : TableRow.Statement (.callFatal cause) := fun _ => ⟨rfl, callWord_low _ _⟩

/-- The row of `ModelFault`. -/
theorem TableRow.callModelFault (cause : ModelCause) : TableRow.Statement (.callModelFault cause) := fun _ => ⟨rfl, callWord_low _ _⟩

/-- The row of `WR_SCAN_LIMIT`. -/
theorem TableRow.wrScanLimit : TableRow.Statement .wrScanLimit := fun _ => ⟨rfl, writeFrame_low _ _⟩

/-- The row of `WR_INTENSITY`. -/
theorem TableRow.wrIntensity : TableRow.Statement .wrIntensity := fun _ => ⟨rfl, writeFrame_low _ _⟩

/-- The row of `WR_DECODE`. -/
theorem TableRow.wrDecode : TableRow.Statement .wrDecode := fun _ => ⟨rfl, writeFrame_low _ _⟩

/-- The row of `WR_CONFIG_NORMAL`. -/
theorem TableRow.wrConfigNormal : TableRow.Statement .wrConfigNormal := fun _ => ⟨rfl, writeFrame_low _ _⟩

/-- The row of `WR_PORT_CONFIG`. -/
theorem TableRow.wrPortConfig : TableRow.Statement .wrPortConfig := fun _ => ⟨rfl, writeFrame_low _ _⟩

/-- The row of `WR_CONFIG_SHUTDOWN`. -/
theorem TableRow.wrConfigShutdown : TableRow.Statement .wrConfigShutdown := fun _ => ⟨rfl, writeFrame_low _ _⟩

/-- The row of `WR_KEY_MASK_OFF`. -/
theorem TableRow.wrKeyMaskOff : TableRow.Statement .wrKeyMaskOff := fun _ => ⟨rfl, writeFrame_low _ _⟩

/-- The row of `WR_DIGIT`. -/
theorem TableRow.wrDigit (display : DisplayId) (digit : DigitId) (data : Byte) : TableRow.Statement (.wrDigit display digit data) := fun _ => ⟨rfl, writeFrame_low _ _⟩

/-- The row of `RD_KEY_DEBOUNCED`. -/
theorem TableRow.rdKeyDebounced : TableRow.Statement .rdKeyDebounced := by
  refine fun _ => ⟨rfl, ?_⟩
  simp only [rowOf, encode, readFrame, lowBits]
  rw [show (0x80FF : BitVec 32) = (0x80FF#16).setWidth 32 from rfl, ← BitVec.setWidth_and,
    show (0x80FF#16) = 1#1 ++ 0#7 ++ 0xFF#8 from rfl, BitVec.and_append, BitVec.and_append]
  simp

/-- The row of `GET_DESCRIPTOR_DEVICE`. -/
theorem TableRow.getDescriptorDevice (wValueLo : Byte) (wIndex wLength : Word16) : TableRow.Statement (.getDescriptorDevice wValueLo wIndex wLength) := fun _ => ⟨rfl, setup_selector _ _ _ _ _ _⟩

/-- The row of `GET_DESCRIPTOR_CONFIGURATION`. -/
theorem TableRow.getDescriptorConfiguration (wValueLo : Byte) (wIndex wLength : Word16) : TableRow.Statement (.getDescriptorConfiguration wValueLo wIndex wLength) := fun _ => ⟨rfl, setup_selector _ _ _ _ _ _⟩

/-- The row of `GET_DESCRIPTOR_STRING`. -/
theorem TableRow.getDescriptorString (index : Byte) (wIndex wLength : Word16) : TableRow.Statement (.getDescriptorString index wIndex wLength) := fun _ => ⟨rfl, setup_selector _ _ _ _ _ _⟩

/-- The row of `GET_DESCRIPTOR_DEVICE_QUALIFIER`. -/
theorem TableRow.getDescriptorDeviceQualifier (wValueLo : Byte) (wIndex wLength : Word16) : TableRow.Statement (.getDescriptorDeviceQualifier wValueLo wIndex wLength) := fun _ => ⟨rfl, setup_selector _ _ _ _ _ _⟩

/-- The row of `GET_DESCRIPTOR_OTHER_DEVICE`. -/
theorem TableRow.getDescriptorOtherDevice (descType wValueLo : Byte) (wIndex wLength : Word16) : TableRow.Statement (.getDescriptorOtherDevice descType wValueLo wIndex wLength) := fun _ => ⟨rfl, setup_request _ _ _ _ _⟩

/-- The row of `GET_DESCRIPTOR_REPORT`. -/
theorem TableRow.getDescriptorReport (wValueLo : Byte) (wIndex wLength : Word16) : TableRow.Statement (.getDescriptorReport wValueLo wIndex wLength) := fun _ => ⟨rfl, setup_selector _ _ _ _ _ _⟩

/-- The row of `GET_DESCRIPTOR_OTHER_INTERFACE`. -/
theorem TableRow.getDescriptorOtherInterface (descType wValueLo : Byte) (wIndex wLength : Word16) : TableRow.Statement (.getDescriptorOtherInterface descType wValueLo wIndex wLength) := fun _ => ⟨rfl, setup_request _ _ _ _ _⟩

/-- The row of `SET_ADDRESS`. -/
theorem TableRow.setAddress (wValue wIndex wLength : Word16) : TableRow.Statement (.setAddress wValue wIndex wLength) := fun _ => ⟨rfl, setup_request _ _ _ _ _⟩

/-- The row of `SET_CONFIGURATION`. -/
theorem TableRow.setConfiguration (wValue wIndex wLength : Word16) : TableRow.Statement (.setConfiguration wValue wIndex wLength) := fun _ => ⟨rfl, setup_request _ _ _ _ _⟩

/-- The row of `SET_INTERFACE`. -/
theorem TableRow.setInterface (wValue wIndex wLength : Word16) : TableRow.Statement (.setInterface wValue wIndex wLength) := fun _ => ⟨rfl, setup_request _ _ _ _ _⟩

/-- The row of `HID_SET_REPORT`. -/
theorem TableRow.hidSetReport (wValue wIndex wLength : Word16) : TableRow.Statement (.hidSetReport wValue wIndex wLength) := fun _ => ⟨rfl, setup_request _ _ _ _ _⟩

/-- The row of `HID_SET_IDLE`. -/
theorem TableRow.hidSetIdle (wValue wIndex wLength : Word16) : TableRow.Statement (.hidSetIdle wValue wIndex wLength) := fun _ => ⟨rfl, setup_request _ _ _ _ _⟩

/-- The row of `HID_GET_REPORT`. -/
theorem TableRow.hidGetReport (wValue wIndex wLength : Word16) : TableRow.Statement (.hidGetReport wValue wIndex wLength) := fun _ => ⟨rfl, setup_request _ _ _ _ _⟩

/-- The row of `UNRECOGNIZED`. -/
theorem TableRow.unrecognized (bmRequestType bRequest : Byte) (wValue wIndex wLength : Word16) : TableRow.Statement (.unrecognized bmRequestType bRequest wValue wIndex wLength) := fun _ => ⟨rfl, BitVec.and_zero⟩

/-- The row of `HID_REPORT`. -/
theorem TableRow.hidReport (v0 v1 : WireValue) : TableRow.Statement (.hidReport v0 v1) := fun _ => ⟨rfl, BitVec.and_zero⟩

/-- The row of `HID_REPORT_DECODE`. -/
theorem TableRow.hidReportDecode (v0 v1 : WireValue) : TableRow.Statement (.hidReportDecode v0 v1) := fun _ => ⟨rfl, BitVec.and_zero⟩

end Sys2Proof.Laws
end

