-- ==== Sys2Proof/Tests/Slice0.lean ====
section
/-! SUPPORT. Tests: the well-formedness checks, the decoding of words written out from the encodings of
`spec/30_encoding.md`, one step of every instruction on the vectors of `spec/95_test_vectors.md`, and for every
statement with hypotheses a state and operands that meet them. -/

namespace Sys2Proof.Tests

open Sys2Proof Sys2Proof.Machine

/-! ### Well-formedness: each check refuses an ill-formed term -/

theorem test_wf_badKind : (Instr.evUsbBadKind 0 0 0b1101).wf = false ∧ (Instr.evUsbBadKind 1 0 0b1101).wf = true := by
  decide

theorem test_wf_unknownEp : (Instr.evUsbUnknownEp 1 0 1).wf = false ∧ (Instr.evUsbUnknownEp 2 0 1).wf = true := by
  decide

theorem test_wf_refused : (Instr.evRefused 3 0 0 1).wf = false ∧ (Instr.evRefused 3 0 0 2).wf = true := by decide

theorem test_wf_otherDevice :
    (Instr.getDescriptorOtherDevice 0x06 0 0 0).wf = false ∧ (Instr.getDescriptorOtherDevice 0x07 0 0 0).wf = true := by
  decide

theorem test_wf_otherInterface :
    (Instr.getDescriptorOtherInterface 0x22 0 0 0).wf = false ∧
    (Instr.getDescriptorOtherInterface 0x21 0 0 0).wf = true := by decide

theorem test_wf_unrecognized :
    (Instr.unrecognized 0xA1 0x01 0 0 0).wf = false ∧ (Instr.unrecognized 0xA1 0x0A 0 0 0).wf = true := by decide

/-! ### The configuration: what R200 fixes in the descriptor tables -/

/-- The test's report descriptor, the same with 24-bit fields, and with its Output item a second Input item. -/
theorem test_report_descriptor :
    reportDescriptorOk Config.default.descReport = true ∧
    reportDescriptorOk (Config.default.descReport.set 15 24) = false ∧
    reportDescriptorOk (Config.default.descReport.set 24 0x81) = false := by decide

/-- An endpoint that is bulk, one of another address, and a configuration of another value are refused. -/
theorem test_config_descriptor :
    Config.default.configDescriptorOk = true ∧
    { Config.default.toRawConfig with descConfig := Config.default.descConfig.set 30 2 }.configDescriptorOk = false ∧
    { Config.default.toRawConfig with descConfig := Config.default.descConfig.set 29 0x82 }.configDescriptorOk = false ∧
    { Config.default.toRawConfig with configValue := 2 }.configDescriptorOk = false := by decide

/-! ### Decoding: every constructor, the words written out -/

/-- The configuration of the tests: registers 0x10 to 0x15 and 0x00, digit registers 0x20 to 0x25 and 0x28 to 0x2D. -/
abbrev T : Config := Config.default

/-- F_EVT: `src` in bits 11:9, `ep` 8:5, `dir` 4, `kind` 3:0 (R81). -/
theorem test_decode_events :
    decode T (.evt 0b000_0000_0_0000) = .ok .evSpiByteComplete ∧
    decode T (.evt 0b001_0000_0_0000) = .ok .evKeyIrq ∧
    decode T (.evt 0b010_0000_0_1101) = .ok .evUsbEp0Setup ∧
    decode T (.evt 0b010_0000_0_0001) = .ok .evUsbEp0Out ∧
    decode T (.evt 0b010_0000_1_1001) = .ok .evUsbEp0In ∧
    decode T (.evt 0b010_0001_0_0001) = .ok .evUsbEp1Out ∧
    decode T (.evt 0b010_0001_1_1001) = .ok .evUsbEp1In ∧
    decode T (.evt 0b011_0000_0_0000) = .ok .evUsbBusReset ∧
    decode T (.evt 0b011_0000_0_0001) = .ok .evUsbBusOther ∧
    decode T (.evt 0b100_0000_0_0000) = .ok .evTimerTick ∧
    decode T (.evt 0b010_0000_0_1001) = .ok (.evUsbBadKind 0 0 9) ∧
    decode T (.evt 0b010_0010_1_1001) = .ok (.evUsbUnknownEp 2 1 9) ∧
    decode T (.evt 0b011_0000_0_0010) = .ok (.evRefused 3 0 0 2) := by decide

/-- F_CALL: the identifier in bits 7:0 (R82), the operands above it (log 9). -/
theorem test_decode_calls :
    decode T (.call 0x02_04_0120_01) = .ok (.callStartExchange 0x0120 4 .keyReadDone) ∧
    decode T (.call 0x01_02) = .ok (.callInvokeCallback .initDone) ∧
    decode T (.call 0x10) = .ok .callInitialize ∧
    decode T (.call 0x11) = .ok .callInitDone ∧
    decode T (.call 0x12) = .ok .callTerminate ∧
    decode T (.call 0x000007_01E240_13) = .ok (.callDisplayValues 123456 7) ∧
    decode T (.call 0x14) = .ok .callServiceInterrupt ∧
    decode T (.call 0x15) = .ok .callKeyReadDone ∧
    decode T (.call 0x20) = .ok .callEp1Enable ∧
    decode T (.call 0x21) = .ok .callEp1Disable ∧
    decode T (.call 0x22) = .ok .callNotifyNewValues ∧
    decode T (.call 0x0A_30) = .ok (.callFatal .deviceQualifier) ∧
    decode T (.call 0x04_31) = .ok (.callModelFault .ep1InOverrun) := by decide

/-- F_CALL words that are no instruction are rejected by name. -/
theorem test_decode_call_rejects :
    decode T (.call 0x23) = .error (.unknownCall 0x23) ∧
    decode T (.call 0x0B_30) = .error (.badOperand 0x0B) ∧
    decode T (.call 0x01_10) = .error .strayOperand := by decide

/-- F_SPI16: `rw` in bit 15, the register in 14:8, the data in 7:0 (R83, R94). -/
theorem test_decode_frames :
    decode T (.spi16 0b0_0010000_00000101) = .ok .wrScanLimit ∧
    decode T (.spi16 0b0_0010001_00001000) = .ok .wrIntensity ∧
    decode T (.spi16 0b0_0010010_11111111) = .ok .wrDecode ∧
    decode T (.spi16 0b0_0010011_00000001) = .ok .wrConfigNormal ∧
    decode T (.spi16 0b0_0010100_00100001) = .ok .wrPortConfig ∧
    decode T (.spi16 0b0_0010011_00000000) = .ok .wrConfigShutdown ∧
    decode T (.spi16 0b0_0010101_00000000) = .ok .wrKeyMaskOff ∧
    decode T (.spi16 0b0_0101001_10000100) = .ok (.wrDigit 1 1 0x84) ∧
    decode T (.spi16 0b1_0000000_00000000) = .ok .rdKeyDebounced ∧
    decode T (.spi16 0b1_0000001_00000000) = .error (.unknownFrame 0x8100) := by decide

/-- F_SETUP: setup byte `k` in bits `8k+7 : 8k` (R86); the words are the setup bytes of L2-D, last byte first. -/
theorem test_decode_setups :
    decode T (.setup 0x0040_0000_01_00_06_80) = .ok (.getDescriptorDevice 0 0 64) ∧
    decode T (.setup 0x00FF_0000_02_00_06_80) = .ok (.getDescriptorConfiguration 0 0 255) ∧
    decode T (.setup 0x00FF_0409_03_02_06_80) = .ok (.getDescriptorString 2 0x0409 255) ∧
    decode T (.setup 0x000A_0000_06_00_06_80) = .ok (.getDescriptorDeviceQualifier 0 0 10) ∧
    decode T (.setup 0x0009_0000_21_00_06_80) = .ok (.getDescriptorOtherDevice 0x21 0 0 9) ∧
    decode T (.setup 0x00FF_0000_22_00_06_81) = .ok (.getDescriptorReport 0 0 255) ∧
    decode T (.setup 0x0009_0000_21_00_06_81) = .ok (.getDescriptorOtherInterface 0x21 0 0 9) ∧
    decode T (.setup 0x0000_0000_00_05_05_00) = .ok (.setAddress 5 0 0) ∧
    decode T (.setup 0x0000_0000_00_01_09_00) = .ok (.setConfiguration 1 0 0) ∧
    decode T (.setup 0x0000_0000_00_01_0B_01) = .ok (.setInterface 1 0 0) ∧
    decode T (.setup 0x0005_0000_02_00_09_21) = .ok (.hidSetReport 0x0200 0 5) ∧
    decode T (.setup 0x0000_0000_00_00_0A_21) = .ok (.hidSetIdle 0 0 0) ∧
    decode T (.setup 0x0005_0000_01_00_01_A1) = .ok (.hidGetReport 0x0100 0 5) ∧
    decode T (.setup 0x0000_0081_00_00_01_02) = .ok (.unrecognized 0x02 0x01 0 0x81 0) := by decide

/-- F_REPORT: the vector (123456, 654321) of L1-4, its last byte first. -/
theorem test_decode_reports :
    decode T (.reportIn 0x9F_BF_11_E2_40) = .ok (.hidReport 123456 654321) ∧
    decode T (.reportOut 0x9F_BF_11_E2_40) = .ok (.hidReportDecode 123456 654321) := by decide

/-- The opcode table's numbering. -/
theorem test_decode_table_words :
    decodeTableWord 12 0x439 = some .evUsbEp1In ∧ decodeTableWord 8 0x22 = some .callNotifyNewValues ∧
    decodeTableWord 32 0x2000680 = some (.getDescriptorConfiguration 0 0 0) := by decide

/-! ### One step of each instruction -/

/-- The state after an outcome; `s` where there is none. -/
def after (s : State) : Host.Outcome State Fault Refusal → State
  | .next t => t
  | .fault _ => s
  | .refused _ => s

/-- The state `i` leaves. -/
def run (i : Instr) (s : State) : State := after s (exec i s)

/-- The trace entries `i` adds. -/
def adds (i : Instr) (s : State) : List Event := (run i s).trace.drop s.trace.length

/-- `S_CONF` of L3-1: configured, address 5, Endpoint 1 enabled, the key interrupt enabled. -/
def conf : State :=
  { State.reset with
    usbAddr := 5, configured := true, ep1Enabled := true, keyIe := true,
    bdEp1Out := { own := .sie, dts := 0, cnt := 5, adr := T.addrEp1Out, stall := false, pid := .out } }

/-- `s` with these bytes in memory from `a` on. -/
def holding (a : Nat) (bs : List Byte) (s : State) : State := { s with ram := s.ram.setAll a bs }

/-- `s` with a transaction active and its last byte in flight. -/
def busy (s : State) : State := { s with spiActive := true, spiRemaining := 2, spiPtr := 0x0120, spiCs := true, shBusy := true }

/-- `s` after a SETUP packet with these bytes. -/
def withSetup (bs : List Byte) (s : State) : State :=
  { holding 0x0400 bs s with
    trnFifo := [(0, .out)], bdEp0Out := { s.bdEp0Out with cnt := 8, pid := .setup, own := .cpu } }

/-- `s` after an OUT packet of Endpoint 0 with these bytes. -/
def withOut0 (bs : List Byte) (s : State) : State :=
  { holding 0x0400 bs s with
    trnFifo := [(0, .out)],
    bdEp0Out := { s.bdEp0Out with cnt := BitVec.ofNat 10 bs.length, pid := .out, own := .cpu } }

/-- `s` after an OUT packet of Endpoint 1 with these bytes. -/
def withOut1 (bs : List Byte) (s : State) : State :=
  { holding 0x0440 bs s with
    trnFifo := [(1, .out)],
    bdEp1Out := { s.bdEp1Out with cnt := BitVec.ofNat 10 bs.length, pid := .out, own := .cpu } }

/-- `s` after an IN completion of this endpoint. -/
def withIn (ep : BitVec 4) (s : State) : State := { s with trnFifo := [(ep, .inn)] }

/-- L1-1, the second byte: a command-pair boundary. -/
theorem test_spi_byte_pair_boundary :
    let s := { holding 0x0112 [0x15, 0x00] conf with
      spiActive := true, spiPtr := 0x0111, spiRemaining := 3, spiCs := true, spiIf := true, shRx := 0xA2, shRxFull := true }
    adds .evSpiByteComplete s = [.rx 0xA2, .cs false, .cs true, .tx 0x15] ∧
    (run .evSpiByteComplete s).ram.read? 0x0111 = some 0xA2 ∧ (run .evSpiByteComplete s).spiRemaining = 2 := by decide

/-- A7. -/
theorem test_spi_spurious :
    adds .evSpiByteComplete { conf with spiIf := true } = [.modelFault .spiSpurious] := by decide

/-- L1-8 and B12. -/
theorem test_key_irq :
    adds .evKeyIrq { conf with keyIf := true } = [.cs true, .tx 0x80] ∧
    (run .evKeyIrq { conf with keyIf := true }).keyIf = false ∧
    run .evKeyIrq { State.reset with keyIf := true } = { State.reset with keyIf := true } := by decide

/-- L1-7. -/
theorem test_setup_set_address :
    adds .evUsbEp0Setup (withSetup [0, 5, 5, 0, 0, 0, 0, 0] State.reset) = [.arm .ep0In 0 1, .arm .ep0Out 32 0] ∧
    (run .evUsbEp0Setup (withSetup [0, 5, 5, 0, 0, 0, 0, 0] State.reset)).pendAddr = some 5 := by decide

/-- R34, D24: a Setup resets the source of the read it preempts. -/
theorem test_setup_resets_source :
    let s := withSetup [0, 5, 5, 0, 0, 0, 0, 0] { State.reset with ctlDir := .d2h, ctlSrcTable := .config, ctlSrcOff := 32 }
    (run .evUsbEp0Setup s).ctlSrcTable = .device ∧ (run .evUsbEp0Setup s).ctlSrcOff = 0 := by decide

/-- D4. -/
theorem test_setup_config_descriptor :
    adds .evUsbEp0Setup (withSetup [0x80, 6, 0, 2, 0, 0, 0xFF, 0] State.reset) = [.arm .ep0In 32 1, .arm .ep0Out 32 1] := by
  decide

/-- L3-5, line 2. -/
theorem test_ep0_out_set_report :
    let s := withOut0 [0xC8, 1, 0xB0, 7, 0] { State.reset with ctlDir := .h2d, ctlRemaining := 32, ctlToggle := 1 }
    adds .evUsbEp0Out s = [.arm .ep0In 0 1, .arm .ep0Out 32 0] ∧
    (run .evUsbEp0Out s).ram.read? 0x0152 = some 0xB0 ∧ (run .evUsbEp0Out s).ctlDst = 5 := by decide

/-- D36. -/
theorem test_ep0_out_stray : adds .evUsbEp0Out (withOut0 [0] State.reset) = [.arm .ep0Out 32 0] := by decide

/-- L1-7, the status IN. -/
theorem test_ep0_in_address :
    let s := withIn 0 { State.reset with ctlStatus := .statusIn, pendAddr := some 5 }
    adds .evUsbEp0In s = [.addr 5] ∧ (run .evUsbEp0In s).usbAddr = 5 ∧ (run .evUsbEp0In s).pendAddr = none := by decide

/-- L1-5, `wLength` 40: the second chunk. -/
theorem test_ep0_in_chunk :
    let s := withIn 0 { State.reset with ctlDir := .d2h, ctlSrcTable := .config, ctlSrcOff := 32, ctlRemaining := 8 }
    adds .evUsbEp0In s = [.arm .ep0In 8 0] ∧ (run .evUsbEp0In s).ram.read? 0x0421 = some 0x64 := by decide

/-- E1. -/
theorem test_ep1_out :
    adds .evUsbEp1Out (withOut1 [0xC8, 0x01, 0xB0, 0x07, 0x00] conf) = [.cs true, .tx 0x20, .arm .ep1Out 5 1] ∧
    (run .evUsbEp1Out (withOut1 [0xC8, 0x01, 0xB0, 0x07, 0x00] conf)).value 0 = 456 ∧
    (run .evUsbEp1Out (withOut1 [0xC8, 0x01, 0xB0, 0x07, 0x00] conf)).value 1 = 123 := by decide

/-- E6. -/
theorem test_ep1_in :
    (run .evUsbEp1In (withIn 1 conf)).ep1InDts = 1 ∧ (run .evUsbEp1In (withIn 1 State.reset)).ep1InDts = 0 := by decide

/-- G2. -/
theorem test_bus_reset :
    adds .evUsbBusReset { conf with busResetIf := true } =
      [.keyIe false, .cs true, .tx 0x13, .reclaim .ep1Out, .ep1Enable false, .addr 0, .reclaim .ep0Out,
       .arm .ep0Out 32 0] ∧
    (run .evUsbBusReset { conf with busResetIf := true }).usbAddr = 0 := by decide

/-- F8; and with a bus reset raised too (R263). -/
theorem test_bus_other :
    run .evUsbBusOther { conf with busOtherIf := true } = conf ∧
    (run .evUsbBusOther { conf with busOtherIf := true, busResetIf := true }).usbAddr = 0 := by decide

/-- F7. -/
theorem test_timer_tick : run .evTimerTick { conf with timerIf := true } = conf := by decide

/-- F5. -/
theorem test_bad_kind : exec (decodeEvt 0x409) conf = .refused .refusedEvent := rfl

/-- F6. -/
theorem test_unknown_ep :
    exec (decodeEvt 0x441) { conf with trnFifo := [(2, .out)] } = .next conf := rfl

/-- F2, F3, F4. -/
theorem test_refused :
    exec (decodeEvt 0xA00) conf = .refused .refusedEvent ∧ exec (decodeEvt 0x602) conf = .refused .refusedEvent ∧
    exec (decodeEvt 0x220) conf = .refused .refusedEvent := ⟨rfl, rfl, rfl⟩

/-- A1 and A10's address. -/
theorem test_start_exchange :
    adds (.callStartExchange 0x0200 2 .keyReadDone) (holding 0x0200 [0x85, 0] conf) = [.cs true, .tx 0x85] ∧
    (run (.callStartExchange 0xFFFE 2 .none) (holding 0xFFFE [1, 2] conf)).spiPtr = 0xFFFE := by decide

/-- R301, R121: a transaction on an armed buffer reads and keeps it, each access recorded. -/
theorem test_armed_buffer_exchange :
    let s := holding 0x0400 [1, 2] { conf with spiPtr := 0x0400 }
    adds (.callStartExchange 0x0400 2 .none) s = [.cs true, .modelFault .bdOwnership, .tx 1] ∧
    adds .evSpiByteComplete { s with spiActive := true, spiRemaining := 2, spiIf := true, shRx := 9 } =
      [.rx 9, .modelFault .bdOwnership, .modelFault .bdOwnership, .tx 2] := by decide

/-- R301, R260, R197, R198: a stray completion of an armed descriptor. -/
theorem test_armed_descriptor_read :
    adds .evUsbEp0Out { conf with trnFifo := [(0, .out)] } =
      [.modelFault .bdOwnership, .modelFault .bdOwnership, .modelFault .bdOwnership] := by decide

/-- A2, A4, A5. -/
theorem test_start_exchange_rejected :
    adds (.callStartExchange 0x0200 0 .none) conf = [.fatal .spiZeroLength] ∧
    adds (.callStartExchange 0x0200 0 .none) (busy conf) = [.fatal .spiBusy, .fatal .spiZeroLength] ∧
    adds (.callStartExchange 0x0200 3 .none) (busy conf) = [.fatal .spiBusy, .modelFault .spiOddLength] := by decide

/-- R122, R146. -/
theorem test_invoke_callback :
    adds (.callInvokeCallback .initDone) State.reset = [.keyIe true] ∧
    run (.callInvokeCallback .none) conf = conf := by decide

/-- B1's first byte and B2. -/
theorem test_initialize :
    adds .callInitialize State.reset = [.cs true, .tx 0x10] ∧
    adds .callInitialize (busy State.reset) = [.fatal .spiBusy] := by decide

theorem test_init_done : (run .callInitDone State.reset).keyIe = true := by decide

/-- L1-1 and B4. -/
theorem test_terminate :
    adds .callTerminate conf = [.keyIe false, .cs true, .tx 0x13] ∧
    adds .callTerminate (busy conf) = [.keyIe false, .fatal .spiBusy] := by decide

/-- B5: the second and the third data byte of L1-3's first row. -/
theorem test_display_values :
    (run (.callDisplayValues 123456 7) conf).ram.read? 0x0123 = some 0x05 ∧
    (run (.callDisplayValues 123456 7) conf).ram.read? 0x0125 = some 0x84 ∧
    (run (.callDisplayValues 123456 7) conf).ram.read? 0x0124 = some 0x22 := by decide

/-- B6. -/
theorem test_display_values_busy :
    adds (.callDisplayValues 5 6) (busy conf) = [.fatal .spiBusy] ∧
    (run (.callDisplayValues 5 6) (busy conf)).value 0 = 5 := by decide

theorem test_service_interrupt :
    adds .callServiceInterrupt conf = [.cs true, .tx 0x80] ∧
    (run .callServiceInterrupt conf).spiCallback = .keyReadDone := by decide

/-- L1-8. -/
theorem test_key_read_done :
    let s := { holding 0x0140 [0, 1] conf with value0 := 123, value1 := 456 }
    adds .callKeyReadDone s = [.cs true, .tx 0x20, .arm .ep1In 5 0] ∧ (run .callKeyReadDone s).value 0 = 456 ∧
    (run .callKeyReadDone s).ram.read? 0x044A = some 0xB0 := by decide

/-- D14. -/
theorem test_ep1_enable :
    adds .callEp1Enable State.reset = [.arm .ep1Out 5 0, .ep1Enable true, .cs true, .tx 0x10] := by decide

/-- E8. -/
theorem test_ep1_disable :
    adds .callEp1Disable { conf with bdEp1In := { conf.bdEp1In with own := .sie } } =
      [.keyIe false, .cs true, .tx 0x13, .reclaim .ep1Out, .reclaim .ep1In, .ep1Enable false] := by decide

/-- E5, E7. -/
theorem test_notify :
    run .callNotifyNewValues State.reset = State.reset ∧
    adds .callNotifyNewValues { conf with bdEp1In := { conf.bdEp1In with own := .sie } } =
      [.modelFault .ep1InOverrun] := by decide

/-- The vector (999999, 999999) of L1-4. -/
theorem test_notify_report :
    let s := { conf with value0 := 999999, value1 := 999999 }
    adds .callNotifyNewValues s = [.arm .ep1In 5 0] ∧
    (List.range 5).map (fun k => (run .callNotifyNewValues s).ram.read? (0x0448 + k)) =
      [some 0x3F, some 0x42, some 0xFF, some 0x23, some 0xF4] := by decide

theorem test_fatal :
    (run (.callFatal .badSetAddress) conf).fatal = true ∧
    (run (.callFatal .badSetAddress) conf).faults = [.fatal .badSetAddress] := by decide

theorem test_model_fault :
    (run (.callModelFault .unwrittenRead) conf).fatal = false ∧
    adds (.callModelFault .unwrittenRead) conf = [.modelFault .unwrittenRead] := by decide

/-- Each frame of `FR` in R141 to R144 sends its register byte from its own place (log 10). -/
theorem test_frames :
    adds .wrScanLimit conf = [.cs true, .tx 0x10] ∧ adds .wrIntensity conf = [.cs true, .tx 0x11] ∧
    adds .wrDecode conf = [.cs true, .tx 0x12] ∧ adds .wrConfigNormal conf = [.cs true, .tx 0x13] ∧
    adds .wrPortConfig conf = [.cs true, .tx 0x14] ∧ adds .wrConfigShutdown conf = [.cs true, .tx 0x13] ∧
    adds .wrKeyMaskOff conf = [.cs true, .tx 0x15] ∧ adds (.wrDigit 1 5 0x09) conf = [.cs true, .tx 0x2D] ∧
    adds .rdKeyDebounced conf = [.cs true, .tx 0x80] := by decide

/-- The second byte of each frame. -/
theorem test_frame_data :
    (run .wrScanLimit conf).ram.read? 0x0101 = some 0x05 ∧ (run .wrIntensity conf).ram.read? 0x0103 = some 0x08 ∧
    (run .wrDecode conf).ram.read? 0x0105 = some 0xFF ∧ (run .wrConfigNormal conf).ram.read? 0x0107 = some 0x01 ∧
    (run .wrPortConfig conf).ram.read? 0x0109 = some 0x21 ∧ (run .wrConfigShutdown conf).ram.read? 0x0111 = some 0x00 ∧
    (run .wrKeyMaskOff conf).ram.read? 0x0113 = some 0x00 ∧ (run (.wrDigit 1 5 0x09) conf).ram.read? 0x0137 = some 0x09 ∧
    (run .rdKeyDebounced conf).ram.read? 0x0141 = some 0x00 := by decide

/-- D1, D5, D8. -/
theorem test_get_descriptor :
    adds (.getDescriptorDevice 0 0 0x40) State.reset = [.arm .ep0In 18 1] ∧
    adds (.getDescriptorString 0 0 0xFF) State.reset = [.arm .ep0In 4 1] ∧
    adds (.getDescriptorReport 0 0 0xFF) State.reset = [.arm .ep0In 27 1] := by decide

/-- D4, L1-5. -/
theorem test_get_configuration_descriptor :
    (run (.getDescriptorConfiguration 0 0 0xFF) State.reset).ctlRemaining = 9 ∧
    adds (.getDescriptorConfiguration 0 0 0) State.reset = [.arm .ep0In 0 1] := by decide

/-- D6, D7, D9, L1-6. -/
theorem test_get_descriptor_rejected :
    adds (.getDescriptorString 3 0 0xFF) State.reset = [.stall .ep0In, .fatal .unsupportedDescriptor] ∧
    adds (.getDescriptorOtherDevice 0x21 0 0 9) State.reset = [.stall .ep0In, .fatal .unsupportedDescriptor] ∧
    adds (.getDescriptorOtherInterface 0x21 0 0 9) State.reset = [.stall .ep0In, .fatal .unsupportedDescriptor] ∧
    adds (.getDescriptorDeviceQualifier 0 0 10) State.reset = [.stall .ep0In] := by decide

/-- D10, D11, D12. -/
theorem test_set_address :
    (run (.setAddress 0x7F 0 0) State.reset).pendAddr = some 127 ∧
    adds (.setAddress 0x80 0 0) State.reset = [.stall .ep0In, .fatal .badSetAddress] ∧
    adds (.setAddress 0x0105 0 0) State.reset = [.stall .ep0In, .fatal .badSetAddress] := by decide

/-- D14, D15. -/
theorem test_set_configuration :
    adds (.setConfiguration 1 0 0) State.reset =
      [.arm .ep1Out 5 0, .ep1Enable true, .cs true, .tx 0x10, .arm .ep0In 0 1] ∧
    adds (.setConfiguration 1 0 0) conf = [.arm .ep0In 0 1] := by decide

/-- D16, D18. -/
theorem test_set_configuration_zero :
    adds (.setConfiguration 0 0 0) conf =
      [.keyIe false, .cs true, .tx 0x13, .reclaim .ep1Out, .ep1Enable false, .arm .ep0In 0 1] ∧
    adds (.setConfiguration 2 0 0) conf = [.stall .ep0In, .fatal .badConfiguration] := by decide

/-- D19, D20. -/
theorem test_set_interface :
    adds (.setInterface 0 0 0) State.reset = [.arm .ep0In 0 1] ∧
    adds (.setInterface 1 0 0) State.reset = [.stall .ep0In, .fatal .nondefaultAltSetting] := by decide

/-- D21, D22. -/
theorem test_set_report :
    (run (.hidSetReport 0x0200 0 5) State.reset).ctlRemaining = 32 ∧
    (run (.hidSetReport 0x0200 0 5) State.reset).ctlDir = .h2d ∧
    adds (.hidSetReport 0x0100 0 5) State.reset = [.stall .ep0In, .fatal .unsupportedReportType] := by decide

/-- D23, D24, D25. -/
theorem test_other_requests :
    adds (.hidSetIdle 0 0 0) State.reset = [.arm .ep0In 0 1] ∧
    adds (.hidGetReport 0x0100 0 5) State.reset = [.stall .ep0In, .fatal .unimplementedGetReport] ∧
    adds (.unrecognized 0x80 0 0 0 2) State.reset = [.stall .ep0In, .fatal .unrecognizedRequest] := by decide

/-- L1-4: (123456, 654321). -/
theorem test_report_rows :
    (List.range 5).map (fun k => (run (.hidReport 123456 654321) conf).ram.read? (0x0448 + k)) =
      [some 0x40, some 0xE2, some 0x11, some 0xBF, some 0x9F] ∧
    (run (.hidReportDecode 123456 654321) conf).value 1 = 654321 := by decide

/-! ### Hypotheses are met: decoding and the step -/

theorem witness_DecodeOfEncode : T.framesDistinct = true ∧ (Instr.wrDigit 1 5 0x89).wf = true := by decide

theorem witness_EncodeOfDecode : decode T (.spi16 0x2189) = .ok (.wrDigit 0 1 0x89) := by decide

theorem witness_StepRunsPacket :
    ({ conf with inputs := [.packet (.call 0x12)] } : State).inputs = .packet (.call 0x12) :: [] ∧
    decode conf.cfg (.call 0x12) = .ok .callTerminate ∧
    decode conf.cfg (.call 0x23) = .error (.unknownCall 0x23) := by decide

/-- Each clause of `StepDispatches`, by the empty schedule or by the dispatcher's turn. -/
theorem witness_StepDispatches :
    State.reset.inputs = [] ∧ T.dispatchOrder.find? (enabled State.reset) = none ∧
    T.dispatchOrder.find? (enabled { conf with spiIf := true }) = some .spiByteComplete ∧
    T.dispatchOrder.find? (enabled { conf with keyIf := true }) = some .keyIrq ∧
    T.dispatchOrder.find? (enabled (withOut1 [] conf)) = some .usbTransaction ∧
    T.dispatchOrder.find? (enabled { conf with busOtherIf := true }) = some .usbBusEvent ∧
    T.dispatchOrder.find? (enabled { conf with timerIf := true }) = some .timerTick ∧
    ({ conf with inputs := [.dispatch] } : State).inputs = .dispatch :: [] := by decide

/-- The clauses on the oldest completion. -/
theorem witness_StepDispatches_usb :
    (withSetup [] conf).trnFifo = (0, .out) :: [] ∧ (withSetup [] conf).bdEp0Out.pid = .setup ∧
    (withOut0 [] conf).trnFifo = (0, .out) :: [] ∧ (withOut0 [] conf).bdEp0Out.pid ≠ .setup ∧
    (withIn 0 conf).trnFifo = (0, .inn) :: [] ∧ (withOut1 [] conf).trnFifo = (1, .out) :: [] ∧
    (withIn 1 conf).trnFifo = (1, .inn) :: [] ∧ (withIn 15 conf).trnFifo = (15, .inn) :: [] := by decide

/-- Also of the last clause of `RefusedEventWords`. -/
theorem witness_DispatcherNeverRefuses :
    State.reset.inputs = [] ∧ nextEvent (withIn 2 State.reset) = some (.evUsbUnknownEp 2 1 0) := by decide

/-! ### Memory -/

/-- No descriptor of this state is owned by the SIE. -/
def quiet : State := { conf with bdEp0Out := { conf.bdEp0Out with own := .cpu }, bdEp1Out := { conf.bdEp1Out with own := .cpu } }

theorem quiet_mayAccess (a n : Nat) : coreMayAccess quiet a n := by
  intro e x h; cases e <;> exact absurd h (by decide)

/-- R301's test on the first and the last byte of an armed buffer, and on the bytes beside it. -/
theorem test_armed_buffer :
    sieOwnsRange conf 0x03FF 1 = false ∧ sieOwnsRange conf 0x0400 1 = true ∧ sieOwnsRange conf 0x041F 1 = true ∧
    sieOwnsRange conf 0x0420 1 = false := by decide

/-- The first byte of an armed buffer is none the CORE may access. -/
theorem conf_mayNotAccess (n : Nat) : ¬coreMayAccess conf 0x0400 (n + 1) := fun h =>
  h .ep0Out 0x0400 (by decide) (by decide) (by decide) ⟨Nat.le_refl _, by omega⟩

/-- The last byte of the space, and one past it; the first byte of an armed buffer. -/
theorem witness_MemoryAccesses :
    65535 + [0#8].length ≤ 65536 ∧ coreMayAccess quiet 65535 [0#8].length ∧
    ¬coreMayAccess conf 0x0400 [0#8].length ∧ 65536 < 65535 + [0#8, 1#8].length ∧
    (∀ k, k < 1 → (holding 65535 [7] quiet).ram.read? (65535 + k) ≠ none) ∧
    (∃ k, k < 1 ∧ quiet.ram.read? (65535 + k) = none) :=
  ⟨by decide, quiet_mayAccess _ _, conf_mayNotAccess 0, by decide, by decide, 0, by decide⟩

/-- The first and the last byte of an armed buffer. -/
theorem witness_SieBufferKept :
    (conf.bd .ep0Out).own = .sie ∧ (epBuffer conf.cfg .ep0Out).1 ≤ 0x0400 ∧
    0x0400 < (epBuffer conf.cfg .ep0Out).1 + (epBuffer conf.cfg .ep0Out).2 ∧
    0x041F < (epBuffer conf.cfg .ep0Out).1 + (epBuffer conf.cfg .ep0Out).2 ∧ 0x03FF ≤ 0x0400 ∧
    0x0400 < 0x03FF + [0#8, 0#8].length := by decide

theorem witness_DescriptorPrimitives :
    (conf.bd .ep0Out).own = .sie ∧ (conf.bd .ep0In).own = .cpu ∧ BdId.ep0In ≠ .ep0Out := by decide

/-! ### The SPI engine -/

theorem conf_ready : engineReady conf := ⟨rfl, rfl⟩

/-- Lengths 2 and 254, a first byte written and one not, one in an armed buffer; each check failing alone. -/
theorem witness_StartExchangeRuns :
    coreMayAccess (holding 0x0200 [0x85, 0] quiet) 0x0200 1 ∧ ¬coreMayAccess conf 0x0400 1 ∧ engineReady conf ∧ (254 : Byte) ≠ 0 ∧ (254 : Byte).toNat % 2 = 0 ∧ (255 : Byte).toNat % 2 = 1 ∧
    (holding 0x0200 [0x85, 0] conf).ram.read? 0x0200 = some 0x85 ∧ conf.ram.read? 0xFFFF = none ∧
    ¬engineReady (busy conf) ∧ ¬engineReady { conf with shRxFull := true } :=
  ⟨quiet_mayAccess _ _, conf_mayNotAccess 0, conf_ready, by decide, by decide, by decide, by decide, by decide,
    (nomatch ·.1), (nomatch ·.2)⟩

/-- A display transaction with `n` bytes left, its byte received. -/
def received (n : Byte) : State :=
  { holding 0x0120 [0x20, 0x06, 0x21, 0x05] quiet with
    spiActive := true, spiPtr := 0x0121, spiRemaining := n, spiCs := true, spiIf := true, shRx := 0xA2, shRxFull := true }

/-- The same on the first byte of an armed buffer. -/
def receivedArmed (n : Byte) : State :=
  { conf with
    spiActive := true, spiPtr := 0x0400, spiRemaining := n, spiCs := true, spiIf := true, shRx := 0xA2, shRxFull := true }

/-- A byte of the middle at a pair boundary (3 left) and inside a pair (2 left), and one in an armed buffer. -/
theorem witness_ByteCompleteContinues :
    ((receivedArmed 3).spiIf = true ∧ (receivedArmed 3).spiActive = true ∧ (receivedArmed 3).spiRemaining ≠ 1 ∧
      ¬coreMayAccess (receivedArmed 3) (receivedArmed 3).spiPtr.toNat 1) ∧
    (received 3).spiIf = true ∧ (received 3).spiActive = true ∧ (received 3).spiRemaining ≠ 1 ∧
    (received 2).spiRemaining ≠ 1 ∧ coreMayAccess (received 3) (received 3).spiPtr.toNat 1 ∧
    (received 3).ram.read? ((received 3).spiPtr + 1).toNat = some 0x21 :=
  ⟨⟨rfl, rfl, by decide, conf_mayNotAccess 0⟩, rfl, rfl, by decide, by decide, quiet_mayAccess _ _, by decide⟩

theorem witness_ByteCompleteEnds :
    ((receivedArmed 1).spiIf = true ∧ (receivedArmed 1).spiActive = true ∧ (receivedArmed 1).spiRemaining = 1 ∧
      ¬coreMayAccess (receivedArmed 1) (receivedArmed 1).spiPtr.toNat 1) ∧
    (received 1).spiIf = true ∧ (received 1).spiActive = true ∧ (received 1).spiRemaining = 1 ∧
    coreMayAccess (received 1) (received 1).spiPtr.toNat 1 ∧
    ({ conf with spiIf := true } : State).spiIf = true ∧ conf.spiActive = false :=
  ⟨⟨rfl, rfl, rfl, conf_mayNotAccess 0⟩, rfl, rfl, rfl, quiet_mayAccess _ _, rfl, rfl⟩

/-- Two frames at the top of the space (A6's bytes, A10's address). -/
theorem witness_TransactionRuns :
    let frames : List FrameExchange := [⟨0x11, 0x22, 0xAA, 0xBB⟩, ⟨0x33, 0x44, 0xCC, 0xDD⟩]
    let s := holding 0xFFFC [0x11, 0x22, 0x33, 0x44] quiet
    engineReady s ∧ s.shBusy = false ∧ s.spiIf = false ∧ frames ≠ [] ∧ 2 * frames.length < 256 ∧
    (0xFFFC : Word16).toNat + 2 * frames.length ≤ 65536 ∧
    coreMayAccess s (0xFFFC : Word16).toNat (2 * frames.length) ∧
    BytesAt s.ram (0xFFFC : Word16).toNat (frames.flatMap fun f => [f.sent0, f.sent1]) :=
  ⟨⟨rfl, rfl⟩, rfl, rfl, by decide, by decide, by decide, quiet_mayAccess _ _, by unfold BytesAt; decide⟩

/-! ### The driver -/

/-- The two cases of `InitializeRuns`, `TerminateRuns`, `DisplayValuesRuns`, `FramesRun` and `KeyInterruptRuns`. -/
theorem witness_engine_cases : engineReady conf ∧ ¬engineReady (busy conf) := ⟨conf_ready, (nomatch ·.1)⟩

/-- The largest value with digits. -/
theorem witness_DisplayValuesRuns :
    (if (1 : Fin 2) = 0 then (0 : StoredValue) else 999999).toNat ≤ 999999 ∧ (999999 : StoredValue).toNat ≤ 999999 := by
  decide

theorem witness_DigitRoundTrip : (999999 : StoredValue).toNat ≤ 999999 := by decide

theorem witness_KeyInterruptRuns :
    engineReady { conf with keyIf := true } ∧ ({ conf with keyIf := true } : State).keyIf = true ∧ conf.keyIe = true ∧
    ¬engineReady (busy { conf with keyIf := true }) :=
  ⟨⟨rfl, rfl⟩, rfl, rfl, (nomatch ·.1)⟩

/-- The test configuration with the gate closed (B9). -/
def gated : Config := ⟨{ Config.defaultRaw with keyGate := .gated }, by decide⟩

/-- The key byte written or not; the gate open, or gated by a byte without and with the key's bit (B9, B10). -/
theorem witness_KeyReadDoneRuns :
    let s := holding 0x0140 [0, 1] conf
    let g := { s with cfg := gated }
    s.ram.read? (s.cfg.addrBufKey.toNat + 1) = some 1 ∧ s.cfg.keyGate = .ungated ∧
    conf.ram.read? (conf.cfg.addrBufKey.toNat + 1) = none ∧ g.cfg.keyGate = .gated ∧
    (1 : Byte) &&& g.cfg.keyPressedMask ≠ 0 ∧ (0 : Byte) &&& g.cfg.keyPressedMask = 0 := by decide

theorem witness_FramesRun :
    Instr.wrDigit 1 5 0x09 = .wrDigit 1 5 0x09 ∧ T.addrBufDisp = (holding 0 [] conf).cfg.addrBufDisp ∧
    (22 : Nat) = 2 * (6 * (1 : Fin 2).val + (5 : Fin 6).val) ∧ (0x2D : Byte) = 0#1 ++ conf.cfg.digitRegister 1 5 := by
  decide

/-! ### Endpoint 1 -/

theorem witness_EndpointOneSwitches : State.reset.bdEp1Out.own = .cpu ∧ conf.bdEp1Out.own = .sie := by decide

theorem witness_NotifyRuns :
    let s := { conf with bdEp1In := { conf.bdEp1In with own := .sie } }
    State.reset.ep1Enabled = false ∧ s.ep1Enabled = true ∧ s.bdEp1In.own = .sie ∧ conf.ep1Enabled = true ∧
    conf.bdEp1In.own = .cpu := by decide

/-- Disabled (E9); five bytes written (E1); a byte never written (E4); the descriptor armed again. -/
theorem witness_EndpointOneOut :
    (({ conf with trnFifo := [(1, .out)] } : State).trnFifo = [(1, .out)] ∧ conf.ep1Enabled = true ∧
      conf.bdEp1Out.own = .sie) ∧
    (withOut1 [1, 2] State.reset).trnFifo = [(1, .out)] ∧ (withOut1 [1, 2] State.reset).ep1Enabled = false ∧
    (withOut1 [1, 2] conf).trnFifo = [(1, .out)] ∧ (withOut1 [1, 2] conf).ep1Enabled = true ∧
    (withOut1 [1, 2] conf).bdEp1Out.own = .cpu ∧
    (∃ k, k < 5 ∧ (withOut1 [1, 2] conf).ram.read? (T.addrEp1Out.toNat + k) = none) ∧
    (∀ k, k < 5 → (withOut1 [1, 2, 3, 4, 5] conf).ram.read? (T.addrEp1Out.toNat + k) ≠ none) :=
  ⟨⟨rfl, rfl, rfl⟩, rfl, rfl, rfl, rfl, rfl, ⟨4, by decide⟩, by decide⟩

theorem witness_EndpointOneIn : (withIn 1 conf).trnFifo = [(1, .inn)] := rfl

/-- The largest values: the report armed, then returned by the host. -/
theorem witness_ReportRoundTrip :
    let s := { conf with value0 := 1048575, value1 := 1048575 }
    let u := withOut1 [0xFF, 0xFF, 0xFF, 0xFF, 0xFF] conf
    s.value0.toNat < 2 ^ 20 ∧ s.value1.toNat < 2 ^ 20 ∧ s.ep1Enabled = true ∧ s.bdEp1In.own = .cpu ∧
    exec .callNotifyNewValues s = .next (run .callNotifyNewValues s) ∧ u.ep1Enabled = true ∧
    u.trnFifo = [(1, .out)] ∧
    ∀ k, k < 5 → u.ram.read? (u.cfg.addrEp1Out.toNat + k) =
      (run .callNotifyNewValues s).ram.read? (s.cfg.addrEp1In.toNat + k) :=
  ⟨by decide, by decide, rfl, rfl, rfl, rfl, rfl, by decide⟩

theorem witness_ReportCodecRuns : conf.bdEp1In.own = .cpu := rfl

/-! ### Endpoint 0 -/

/-- Every request's hypotheses on the descriptor. -/
theorem witness_DescriptorReadStarts :
    Instr.getDescriptorString 2 0 64 = .getDescriptorString 2 0 64 ∧ State.reset.bdEp0In.own = .cpu := by decide

/-- The test configuration with `P_DQ_FATAL`. -/
def qualifierFatal : Config := ⟨{ Config.defaultRaw with dqFatal := true }, by decide⟩

/-- Each clause at a boundary value. -/
theorem witness_RejectedRequests :
    let s := State.reset
    let q := { s with cfg := qualifierFatal }
    s.bdEp0In.own = .cpu ∧ 2 < (3 : Byte).toNat ∧ 128 ≤ (128 : Word16).toNat ∧
    (0x0002 : Word16).extractLsb' 0 8 ≠ 0 ∧ (0x0002 : Word16).extractLsb' 0 8 ≠ s.cfg.configValue ∧ (1 : Word16) ≠ 0 ∧
    (0x0100 : Word16).extractLsb' 8 8 ≠ 2 ∧ s.cfg.dqFatal = false ∧ q.bdEp0In.own = .cpu ∧ q.cfg.dqFatal = true := by
  decide

theorem witness_AcceptedRequests :
    State.reset.bdEp0In.own = .cpu ∧ (127 : Word16).toNat < 128 ∧ (0x02FF : Word16).extractLsb' 8 8 = 2 := by decide

/-- `SetConfiguration` of 0, of the supported value, with an ignored high byte, in both states, and of another value. -/
theorem witness_ConfigurationRequests :
    conf.bdEp0In.own = .cpu ∧ conf.configured = true ∧ State.reset.bdEp0In.own = .cpu ∧
    State.reset.configured = false ∧ (0x0100 : Word16).extractLsb' 0 8 = 0 ∧ (0x0101 : Word16).extractLsb' 0 8 ≠ 0 ∧
    (0x0101 : Word16).extractLsb' 0 8 = conf.cfg.configValue ∧
    (0x0101 : Word16).extractLsb' 0 8 = State.reset.cfg.configValue ∧ (0x0002 : Word16).extractLsb' 0 8 ≠ 0 ∧
    (0x0002 : Word16).extractLsb' 0 8 ≠ conf.cfg.configValue := by decide

theorem witness_SetupRuns :
    let s := withSetup [0x80, 6, 0, 1, 0, 0, 0x40, 0] State.reset
    s.trnFifo = [(0, .out)] ∧ s.bdEp0Out.pid = .setup ∧ s.bdEp0Out.own = .cpu ∧
    BytesAt s.ram s.cfg.addrEp0Out.toNat [0x80, 6, 0, 1, 0, 0, 0x40, 0] :=
  ⟨rfl, rfl, rfl, by unfold BytesAt; decide⟩

/-- Each clause: the end of a read, a status IN with and without an address, a stray completion. -/
theorem witness_EndpointZeroInStatus :
    let r := withIn 0 { conf with ctlDir := .d2h }
    let a := withIn 0 { conf with ctlStatus := .statusIn, pendAddr := some 127 }
    let n := withIn 0 { conf with ctlStatus := .statusIn }
    let o := withIn 0 conf
    (r.trnFifo = [(0, .inn)] ∧ r.ctlDir = .d2h ∧ r.ctlRemaining = 0 ∧ r.ctlZlp = false) ∧
    (a.trnFifo = [(0, .inn)] ∧ a.ctlDir ≠ .d2h ∧ a.ctlStatus = .statusIn ∧ a.pendAddr = some 127) ∧
    (n.trnFifo = [(0, .inn)] ∧ n.ctlDir ≠ .d2h ∧ n.ctlStatus = .statusIn ∧ n.pendAddr = none) ∧
    (o.trnFifo = [(0, .inn)] ∧ o.ctlDir ≠ .d2h ∧ o.ctlStatus ≠ .statusIn) := by decide

/-- A last chunk of 9 bytes that ends at the table's end, a full chunk, an owed zero-length packet. -/
theorem witness_EndpointZeroInChunk :
    let r := { conf with ctlDir := .d2h, ctlSrcTable := .config }
    let s := withIn 0 { r with ctlSrcOff := 32, ctlRemaining := 9 }
    let f := withIn 0 { r with ctlSrcOff := 9, ctlRemaining := 32 }
    let z := withIn 0 { r with ctlSrcOff := 41, ctlZlp := true }
    (s.trnFifo = [(0, .inn)] ∧ s.ctlDir = .d2h ∧ s.bdEp0In.own = .cpu ∧ TransferInv s ∧ s.ctlRemaining ≠ 0) ∧
    (f.trnFifo = [(0, .inn)] ∧ f.ctlDir = .d2h ∧ f.bdEp0In.own = .cpu ∧ TransferInv f ∧ f.ctlRemaining ≠ 0) ∧
    (z.trnFifo = [(0, .inn)] ∧ z.ctlDir = .d2h ∧ z.bdEp0In.own = .cpu ∧ TransferInv z ∧ z.ctlRemaining = 0 ∧
      z.ctlZlp = true) :=
  ⟨⟨rfl, rfl, rfl, ⟨by decide, by decide⟩, by decide⟩, ⟨rfl, rfl, rfl, ⟨by decide, by decide⟩, by decide⟩,
    rfl, rfl, rfl, ⟨by decide, by decide⟩, rfl, rfl⟩

/-- The status OUT of a read, an early OUT, a stray one (D1, D33, D36). -/
theorem witness_EndpointZeroOutIdle :
    let s := withOut0 [] { conf with ctlStatus := .statusOut }
    let e := withOut0 [] { conf with ctlDir := .d2h }
    let o := withOut0 [0] conf
    (s.trnFifo = [(0, .out)] ∧ s.bdEp0Out.pid ≠ .setup ∧ s.bdEp0Out.own = .cpu ∧ s.ctlDir = .none ∧
      s.ctlStatus = .statusOut) ∧
    (e.trnFifo = [(0, .out)] ∧ e.bdEp0Out.pid ≠ .setup ∧ e.bdEp0Out.own = .cpu ∧ e.ctlDir = .d2h) ∧
    (o.trnFifo = [(0, .out)] ∧ o.bdEp0Out.pid ≠ .setup ∧ o.bdEp0Out.own = .cpu ∧ o.ctlDir = .none ∧
      o.ctlStatus ≠ .statusOut) ∧
    (conf.bdEp0Out.pid ≠ .setup ∧ conf.bdEp0Out.own = .sie ∧ conf.ctlDir = .none ∧ conf.ctlStatus ≠ .statusOut) := by
  decide

/-- The state of a SetReport's data stage with `r` bytes expected. -/
def writing (r : Word16) : State := { quiet with ctlDir := .h2d, ctlRemaining := r, ctlToggle := 1 }

/-- The test configuration with `P_SETREPORT_SINK = DISPLAY`. -/
def displaySink : Config := ⟨{ Config.defaultRaw with setReportSink := .display }, by decide⟩

/-- A short packet of five bytes under either sink (L3-5). -/
theorem witness_EndpointZeroOutData :
    let s := withOut0 [0xC8, 1, 0xB0, 7, 0] (writing 32)
    let d := withOut0 [0xC8, 1, 0xB0, 7, 0] { writing 32 with cfg := displaySink }
    (s.trnFifo = [(0, .out)] ∧ s.bdEp0Out.pid ≠ .setup ∧ s.bdEp0Out.own = .cpu ∧ s.bdEp0In.own = .cpu ∧
      s.ctlDir = .h2d ∧ s.bdEp0Out.cnt.toNat ≤ 32 ∧ s.ctlDst.toNat + [0xC8#8, 1, 0xB0, 7, 0].length ≤ 32 ∧
      [0xC8#8, 1, 0xB0, 7, 0].length = min s.bdEp0Out.cnt.toNat s.ctlRemaining.toNat ∧
      BytesAt s.ram s.cfg.addrEp0Out.toNat [0xC8, 1, 0xB0, 7, 0] ∧ s.bdEp0Out.cnt ≠ 32 ∧
      s.cfg.setReportSink = .discard) ∧
    (d.trnFifo = [(0, .out)] ∧ d.bdEp0Out.pid ≠ .setup ∧ d.bdEp0Out.own = .cpu ∧ d.bdEp0In.own = .cpu ∧
      d.ctlDir = .h2d ∧ d.bdEp0Out.cnt.toNat ≤ 32 ∧ d.ctlDst.toNat + [0xC8#8, 1, 0xB0, 7, 0].length ≤ 32 ∧
      [0xC8#8, 1, 0xB0, 7, 0].length = min d.bdEp0Out.cnt.toNat d.ctlRemaining.toNat ∧
      BytesAt d.ram d.cfg.addrEp0Out.toNat [0xC8, 1, 0xB0, 7, 0] ∧ d.bdEp0Out.cnt ≠ 32 ∧
      d.cfg.setReportSink = .display ∧ 5 ≤ (d.ctlDst + BitVec.ofNat 16 [0xC8#8, 1, 0xB0, 7, 0].length).toNat ∧
      BytesAt (holding 0x0150 [0xC8, 1, 0xB0, 7, 0] d).ram d.cfg.addrBufSetrep.toNat [0xC8, 1, 0xB0, 7, 0]) :=
  ⟨⟨rfl, by decide, rfl, rfl, rfl, by decide, by decide, by decide, by unfold BytesAt; decide, by decide, rfl⟩,
    rfl, by decide, rfl, rfl, rfl, by decide, by decide, by decide, by unfold BytesAt; decide, by decide, rfl,
    by decide, by unfold BytesAt; decide⟩

/-- The full packet that ends the stage (D35), and one with a byte to come. -/
theorem witness_EndpointZeroOutData_full :
    let s := withOut0 (List.replicate 32 7) (writing 32)
    let m := withOut0 (List.replicate 32 7) (writing 33)
    (s.trnFifo = [(0, .out)] ∧ s.bdEp0Out.pid ≠ .setup ∧ s.bdEp0Out.own = .cpu ∧ s.bdEp0In.own = .cpu ∧
      s.ctlDir = .h2d ∧ s.bdEp0Out.cnt = 32 ∧ s.ctlDst.toNat + 32 ≤ 32 ∧
      (List.replicate 32 (7 : Byte)).length = min s.bdEp0Out.cnt.toNat s.ctlRemaining.toNat ∧
      BytesAt s.ram s.cfg.addrEp0Out.toNat (List.replicate 32 7) ∧ s.ctlRemaining - BitVec.ofNat 16 32 = 0) ∧
    (m.trnFifo = [(0, .out)] ∧ m.bdEp0Out.pid ≠ .setup ∧ m.bdEp0Out.own = .cpu ∧ m.bdEp0In.own = .cpu ∧
      m.ctlDir = .h2d ∧ m.bdEp0Out.cnt = 32 ∧ m.ctlDst.toNat + 32 ≤ 32 ∧
      (List.replicate 32 (7 : Byte)).length = min m.bdEp0Out.cnt.toNat m.ctlRemaining.toNat ∧
      BytesAt m.ram m.cfg.addrEp0Out.toNat (List.replicate 32 7) ∧ m.ctlRemaining - BitVec.ofNat 16 32 ≠ 0) :=
  ⟨⟨rfl, by decide, rfl, rfl, rfl, by decide, by decide, by decide, by unfold BytesAt; decide, by decide⟩,
    rfl, by decide, rfl, rfl, rfl, by decide, by decide, by decide, by unfold BytesAt; decide, by decide⟩

/-- The configuration descriptor, 41 bytes in two packets (D4). -/
theorem witness_ControlReadDelivers :
    State.reset.bdEp0In.own = .cpu ∧ State.reset.trnFifo = [] ∧
    exec (.getDescriptorConfiguration 0 0 255) State.reset =
      .next (run (.getDescriptorConfiguration 0 0 255) State.reset) ∧
    readPackets ((T.rom .config).take 255).length.succ 1 ((T.rom .config).take 255) =
      [.data .ep0In 1 ((T.rom .config).take 32), .data .ep0In 0 ((T.rom .config).drop 32)] :=
  ⟨rfl, rfl, rfl, by decide⟩

/-! ### Events, agents -/

/-- Each clause of `DisabledEventsDoNothing` at the reset state, and the two on the token. -/
theorem witness_DisabledEventsDoNothing :
    State.reset.spiIf = false ∧ State.reset.keyIf = false ∧ State.reset.trnFifo.head? ≠ some (0, .out) ∧
    State.reset.trnFifo.head? ≠ some (0, .inn) ∧ State.reset.trnFifo.head? ≠ some (1, .out) ∧
    State.reset.trnFifo.head? ≠ some (1, .inn) ∧ State.reset.busResetIf = false ∧ State.reset.busOtherIf = false ∧
    State.reset.timerIf = false ∧ (withOut0 [] State.reset).bdEp0Out.pid ≠ .setup ∧
    (withSetup [] State.reset).bdEp0Out.pid = .setup := by decide

theorem witness_BusResetRuns :
    let s := { conf with busResetIf := true }
    let u := { State.reset with busResetIf := true }
    s.busResetIf = true ∧ s.configured = true ∧ u.busResetIf = true ∧ u.configured = false := by decide

theorem witness_IdleEventsRun :
    let s := { conf with busOtherIf := true, timerIf := true }
    let b := { conf with busOtherIf := true, busResetIf := true }
    (b.busOtherIf = true ∧ b.busResetIf = true) ∧ s.busOtherIf = true ∧ s.busResetIf = false ∧ s.timerIf = true ∧ (2 : BitVec 4) ≠ 0 ∧ (2 : BitVec 4) ≠ 1 ∧
    (withIn 2 conf).trnFifo = [(2, if (1 : BitVec 1) = 0 then .out else .inn)] := by decide

/-- Two completions, and one whose event ends with an empty queue. -/
theorem witness_QueueDrainsInOrder :
    let s := { conf with trnFifo := [(1, .inn), (0, .inn)] }
    usbEvent (withIn 1 conf) = some .evUsbEp1In ∧
    exec .evUsbEp1In (withIn 1 conf) = .next (run .evUsbEp1In (withIn 1 conf)) ∧
    s.trnFifo = (1, .inn) :: (0, .inn) :: [] ∧ usbEvent s = some .evUsbEp1In ∧
    exec .evUsbEp1In { s with trnFifo := [(1, .inn)] } = .next (run .evUsbEp1In { s with trnFifo := [(1, .inn)] }) ∧
    usbEvent { run .evUsbEp1In { s with trnFifo := [(1, .inn)] } with trnFifo := [(0, .inn)] } = some .evUsbEp0In :=
  ⟨rfl, rfl, rfl, rfl, rfl, rfl⟩

theorem witness_DeviceAgentsStep :
    let s := { conf with inputs := [.agent (.shifter 7)], shBusy := true }
    let i := { conf with inputs := [.agent (.shifter 7)] }
    s.inputs = .agent (.shifter 7) :: [] ∧ s.shBusy = true ∧ i.inputs = .agent (.shifter 7) :: [] ∧ i.shBusy = false ∧
    ({ conf with inputs := [.agent .keyEdge] } : State).inputs = .agent .keyEdge :: [] ∧
    ({ conf with inputs := [.agent .busReset] } : State).inputs = .agent .busReset :: [] ∧
    ({ conf with inputs := [.agent .busOther] } : State).inputs = .agent .busOther :: [] ∧
    ({ conf with inputs := [.agent .timerTick] } : State).inputs = .agent .timerTick :: [] := by decide

theorem conf_buffers : BuffersInv conf := by
  intro e; cases e <;> decide

/-- The test configuration with `P_SIE_DTS_CHECK`. -/
def checking : Config := ⟨{ Config.defaultRaw with sieDtsCheck := true }, by decide⟩

/-- An armed OUT descriptor with as many bytes as it counts, a SETUP of eight, the other toggle under the check. -/
theorem witness_HostPacketsArrive :
    let five := List.replicate 5 (1 : Byte)
    let o := { conf with inputs := [.agent (.hostOut .ep1 0 five)] }
    let u := { conf with inputs := [.agent (.hostSetup (List.replicate 8 1))] }
    let c := { conf with cfg := checking, inputs := [.agent (.hostOut .ep1 1 five)] }
    (BuffersInv o ∧ (o.bd (outBd .ep1)).own = .sie ∧ (o.bd (outBd .ep1)).stall = false ∧
      o.inputs = .agent (.hostOut .ep1 0 five) :: [] ∧ (o.cfg.sieDtsCheck = true → (0 : Toggle) = (o.bd (outBd .ep1)).dts) ∧
      five.length ≤ (o.bd (outBd .ep1)).cnt.toNat) ∧
    (BuffersInv u ∧ (u.bd (outBd .ep0)).own = .sie ∧ (u.bd (outBd .ep0)).stall = false ∧
      u.inputs = .agent (.hostSetup (List.replicate 8 1)) :: [] ∧ (List.replicate 8 (1 : Byte)).length = 8) ∧
    (BuffersInv c ∧ (c.bd (outBd .ep1)).own = .sie ∧ (c.bd (outBd .ep1)).stall = false ∧
      c.inputs = .agent (.hostOut .ep1 1 five) :: [] ∧ c.cfg.sieDtsCheck = true ∧ (1 : Toggle) ≠ (c.bd (outBd .ep1)).dts) :=
  ⟨⟨conf_buffers, rfl, rfl, rfl, by decide, by decide⟩, ⟨conf_buffers, rfl, rfl, rfl, by decide⟩,
    ⟨by intro e; cases e <;> decide, rfl, rfl, rfl, rfl, by decide⟩⟩

/-- A CPU-owned and a stalled descriptor, at an OUT and at a SETUP token. -/
theorem witness_HostPacketsArrive_answers :
    let q := { quiet with inputs := [.agent (.hostOut .ep1 0 [])] }
    let h := { conf with bdEp1Out := { conf.bdEp1Out with stall := true }, inputs := [.agent (.hostOut .ep1 0 [])] }
    let p := { quiet with inputs := [.agent (.hostSetup [])] }
    let k := { conf with bdEp0Out := { conf.bdEp0Out with stall := true }, inputs := [.agent (.hostSetup [])] }
    (BuffersInv q ∧ (q.bd (outBd .ep1)).own = .cpu ∧ q.inputs = .agent (.hostOut .ep1 0 []) :: []) ∧
    (BuffersInv h ∧ (h.bd (outBd .ep1)).own = .sie ∧ (h.bd (outBd .ep1)).stall = true ∧
      h.inputs = .agent (.hostOut .ep1 0 []) :: []) ∧
    (BuffersInv p ∧ (p.bd (outBd .ep0)).own = .cpu ∧ p.inputs = .agent (.hostSetup []) :: []) ∧
    (BuffersInv k ∧ (k.bd (outBd .ep0)).own = .sie ∧ (k.bd (outBd .ep0)).stall = true ∧
      k.inputs = .agent (.hostSetup []) :: []) :=
  ⟨⟨by intro e; cases e <;> decide, rfl, rfl⟩, ⟨by intro e; cases e <;> decide, rfl, rfl, rfl⟩,
    ⟨by intro e; cases e <;> decide, rfl, rfl⟩, by intro e; cases e <;> decide, rfl, rfl, rfl⟩

/-- Packets that break the laws: an OUT of six bytes at a count of five, a SETUP of seven. -/
theorem witness_HostPacketsArrive_unlawful :
    let o := { conf with inputs := [.agent (.hostOut .ep1 0 (List.replicate 6 1))] }
    let u := { conf with inputs := [.agent (.hostSetup (List.replicate 7 1))] }
    (BuffersInv o ∧ (o.bd (outBd .ep1)).own = .sie ∧ (o.bd (outBd .ep1)).stall = false ∧ o.cfg.sieDtsCheck = false ∧
      o.inputs = .agent (.hostOut .ep1 0 (List.replicate 6 1)) :: [] ∧
      (o.bd (outBd .ep1)).cnt.toNat < (List.replicate 6 (1 : Byte)).length) ∧
    (BuffersInv u ∧ (u.bd (outBd .ep0)).own = .sie ∧ (u.bd (outBd .ep0)).stall = false ∧
      u.inputs = .agent (.hostSetup (List.replicate 7 1)) :: [] ∧ (List.replicate 7 (1 : Byte)).length ≠ 8) :=
  ⟨⟨conf_buffers, rfl, rfl, rfl, rfl, by decide⟩, conf_buffers, rfl, rfl, rfl, by decide⟩

/-- A report armed for the host. -/
def reporting : State :=
  { holding 0x0448 [0xC8, 0x01, 0xB0, 0x07, 0x00] conf with
    bdEp1In := { own := .sie, dts := 1, cnt := 5, adr := T.addrEp1In, stall := false, pid := .inn }
    inputs := [.agent (.hostIn .ep1)] }

theorem witness_HostReadsPacket :
    let q := { conf with inputs := [.agent (.hostIn .ep1)] }
    let h := { reporting with bdEp1In := { reporting.bdEp1In with stall := true } }
    (reporting.inputs = .agent (.hostIn .ep1) :: [] ∧ BuffersInv reporting ∧ (reporting.bd (inBd .ep1)).own = .sie ∧
      (reporting.bd (inBd .ep1)).stall = false ∧
      [0xC8#8, 0x01, 0xB0, 0x07, 0x00].length = (reporting.bd (inBd .ep1)).cnt.toNat ∧
      BytesAt reporting.ram (epBuffer reporting.cfg (inBd .ep1)).1 [0xC8, 0x01, 0xB0, 0x07, 0x00]) ∧
    (q.inputs = .agent (.hostIn .ep1) :: [] ∧ BuffersInv q ∧ (q.bd (inBd .ep1)).own = .cpu) ∧
    (h.inputs = .agent (.hostIn .ep1) :: [] ∧ BuffersInv h ∧ (h.bd (inBd .ep1)).own = .sie ∧
      (h.bd (inBd .ep1)).stall = true) :=
  ⟨⟨rfl, by intro e; cases e <;> decide, rfl, rfl, rfl, by unfold BytesAt; decide⟩, ⟨rfl, conf_buffers, rfl⟩,
    rfl, by intro e; cases e <;> decide, rfl, rfl⟩

/-! ### The output lines and the control stage -/

/-- A key read that reports chip-select, and each clause on the stage at a state that completes: a Setup, the chunk and
the end of a read, a status IN, an early OUT, a status OUT, a full packet with a byte to come, a short packet. -/
theorem witness_OutputLinesAndStage :
    let k := { conf with keyIf := true }
    let u := withSetup [0, 5, 5, 0, 0, 0, 0, 0] { conf with ctlDir := .d2h }
    let r := withIn 0 { conf with ctlDir := .d2h, ctlSrcTable := .config, ctlSrcOff := 32, ctlRemaining := 9 }
    let e := withIn 0 { conf with ctlDir := .d2h }
    let n := withIn 0 { conf with ctlStatus := .statusIn }
    let o := withOut0 [] { conf with ctlDir := .d2h }
    let q := withOut0 [] { conf with ctlStatus := .statusOut }
    let w := withOut0 (List.replicate 32 7) (writing 33)
    let h := withOut0 [1] (writing 32)
    (step k = .next (run .evKeyIrq k) ∧ csLevel (run .evKeyIrq k) ≠ csLevel k) ∧
    indicatorLevel { conf with fatal := true } ≠ conf.cfg.indicatorLevel ∧
    (BytesAt u.ram u.cfg.addrEp0Out.toNat [0, 5, 5, 0, 0, 0, 0, 0] ∧ u.bdEp0Out.pid = .setup ∧ u.trnFifo = [(0, .out)] ∧
      exec .evUsbEp0Setup u = .next (run .evUsbEp0Setup u) ∧ stage (run .evUsbEp0Setup u) = .statusStage) ∧
    (stage r = .dataStageRead ∧ r.ctlRemaining ≠ 0 ∧ exec .evUsbEp0In r = .next (run .evUsbEp0In r)) ∧
    (stage e = .dataStageRead ∧ exec .evUsbEp0In e = .next (run .evUsbEp0In e)) ∧
    (stage n = .statusStage ∧ exec .evUsbEp0In n = .next (run .evUsbEp0In n)) ∧
    (stage o = .dataStageRead ∧ exec .evUsbEp0Out o = .next (run .evUsbEp0Out o)) ∧
    (stage q = .statusStage ∧ exec .evUsbEp0Out q = .next (run .evUsbEp0Out q)) ∧
    (stage w = .dataStageWrite ∧ w.bdEp0Out.cnt = 32 ∧ 32 < w.ctlRemaining.toNat ∧
      exec .evUsbEp0Out w = .next (run .evUsbEp0Out w)) ∧
    (stage h = .dataStageWrite ∧ h.bdEp0Out.cnt.toNat ≤ 32 ∧ exec .evUsbEp0Out h = .next (run .evUsbEp0Out h)) :=
  ⟨⟨rfl, by decide⟩, by decide, ⟨by unfold BytesAt; decide, rfl, rfl, rfl, by decide⟩, ⟨rfl, by decide, rfl⟩,
    ⟨rfl, rfl⟩, ⟨rfl, rfl⟩, ⟨rfl, rfl⟩, ⟨rfl, rfl⟩, ⟨rfl, rfl, by decide, rfl⟩, rfl, by decide, rfl⟩

/-! ### The invariants -/

/-- The SPI entry point is next, its byte received. -/
def stepping : State := { received 3 with keyIe := true, bdEp0Out := conf.bdEp0Out }

/-- The state after a step. -/
def stepped (s : State) : State := after s (step s)

theorem witness_StepKeepsEngine : EngineInv stepping ∧ step stepping = .next (stepped stepping) :=
  ⟨⟨(nomatch ·), fun _ => ⟨by decide, rfl, .inr ⟨rfl, rfl, rfl⟩⟩⟩, rfl⟩

theorem witness_StepKeepsEp0Out : Ep0OutInv stepping ∧ step stepping = .next (stepped stepping) :=
  ⟨⟨.inl rfl, rfl⟩, rfl⟩

/-- An event word in the schedule drains an Endpoint 1 completion that waits. -/
theorem witness_StepKeepsEndpointOne :
    let s := { withOut1 [1, 2, 3, 4, 5] conf with inputs := [.packet (.evt 0x421)] }
    ¬nextPacketRuns .callEp1Enable s ∧ ¬nextPacketRuns .callEp1Disable s ∧ Endpoint1Inv s ∧
    step s = .next (stepped s) ∧ (stepped s).bdEp1Out.own = .sie :=
  ⟨fun ⟨_, _, h, hd⟩ => by cases h; exact absurd hd (by decide),
    fun ⟨_, _, h, hd⟩ => by cases h; exact absurd hd (by decide),
    ⟨rfl, (nomatch ·), fun _ => .inr (by decide), rfl, rfl⟩, rfl, by decide⟩

/-- A report row in the schedule; and `DisplayValues` of the largest values that fit. -/
theorem witness_StepKeepsValues :
    let s := { conf with inputs := [.packet (.reportOut 0x9F_BF_11_E2_40)] }
    let d := { conf with inputs := [.packet (.call 0x0FFFFF_0FFFFF_13)] }
    ((∀ v0 v1, nextPacketRuns (.callDisplayValues v0 v1) s → v0.toNat < 2 ^ 20 ∧ v1.toNat < 2 ^ 20) ∧
      ValuesInv s ∧ step s = .next (stepped s)) ∧
    ((∀ v0 v1, nextPacketRuns (.callDisplayValues v0 v1) d → v0.toNat < 2 ^ 20 ∧ v1.toNat < 2 ^ 20) ∧
      ValuesInv d ∧ step d = .next (stepped d)) := by
  refine ⟨⟨fun v0 v1 ⟨_, _, h, hd⟩ => ?_, by unfold ValuesInv; decide, rfl⟩,
    fun v0 v1 ⟨_, _, h, hd⟩ => ?_, by unfold ValuesInv; decide, rfl⟩
  · cases h; cases hd
  · cases h; cases hd; decide

theorem witness_StepKeepsMemoryForm : stepping.ram.wf = true ∧ step stepping = .next (stepped stepping) :=
  ⟨by decide, rfl⟩

/-- The hypotheses of `StepKeepsContainment` and `NoStepIsStuck`, and the step of `RecordsGrow` and
`ChangesAreReported`, at a state with a control read and a transaction in progress. -/
theorem witness_StepKeepsContainment :
    let s := { stepping with ctlDir := .d2h, ctlSrcTable := .config, ctlSrcOff := 32, ctlRemaining := 9 }
    BuffersInv s ∧ TransferInv s ∧ step s = .next (stepped s) :=
  ⟨by intro e; cases e <;> decide, ⟨by decide, by decide⟩, rfl⟩

theorem witness_RecordsGrow : step { conf with keyIf := true } = .next (run .evKeyIrq { conf with keyIf := true }) := rfl

/-- A status IN that applies an address, and a bus reset that clears one. -/
theorem witness_AddressChangesAfterHandshake :
    let s := withIn 0 { conf with ctlStatus := .statusIn, pendAddr := some 7 }
    let r := { conf with busResetIf := true }
    step s = .next (stepped s) ∧ (stepped s).usbAddr ≠ s.usbAddr ∧ step r = .next (stepped r) ∧
    (stepped r).usbAddr ≠ r.usbAddr :=
  ⟨rfl, by decide, rfl, by decide⟩

end Sys2Proof.Tests
end

section
/-! PROOFS. The state after power-on, one lemma for each group of fields of `spec/10_state.md`, and the reset
sequence of `spec/70_reset_and_hazards.md` R291 as the model's own `Arm`. -/

namespace Sys2Proof.Machine

open Sys2Proof

/-! ### Power-on, R52, by group of state -/

/-- The SPI engine and its shifter, R21 to R27: idle. -/
@[simp] theorem powerOn_engine (c : Config) :
    (State.powerOn c).spiActive = false ∧ (State.powerOn c).spiPtr = 0 ∧ (State.powerOn c).spiRemaining = 0 ∧
    (State.powerOn c).spiCallback = .none ∧ (State.powerOn c).spiCs = false ∧ (State.powerOn c).shBusy = false ∧
    (State.powerOn c).shRxFull = false ∧ (State.powerOn c).shTx = 0 ∧ (State.powerOn c).shRx = 0 :=
  ⟨rfl, rfl, rfl, rfl, rfl, rfl, rfl, rfl, rfl⟩

/-- The display, R28 to R30: the configured values and point, the key interrupt disabled. -/
@[simp] theorem powerOn_display (c : Config) :
    (State.powerOn c).value 0 = c.initV0 ∧ (State.powerOn c).value 1 = c.initV1 ∧
    (State.powerOn c).dpPos = c.dpPos ∧ (State.powerOn c).keyIe = false ∧ (State.powerOn c).keyIf = false :=
  ⟨rfl, rfl, rfl, rfl, rfl⟩

/-- The device and its control transfer, R32 to R34: unaddressed, deconfigured, no transfer in progress. -/
@[simp] theorem powerOn_control (c : Config) :
    (State.powerOn c).usbAddr = 0 ∧ (State.powerOn c).pendAddr = none ∧ (State.powerOn c).configured = false ∧
    (State.powerOn c).ctlDir = .none ∧ (State.powerOn c).ctlStatus = .none ∧
    (State.powerOn c).ctlSrcTable = .device ∧ (State.powerOn c).ctlSrcOff = 0 ∧ (State.powerOn c).ctlDst = 0 ∧
    (State.powerOn c).ctlRemaining = 0 ∧ (State.powerOn c).ctlToggle = 0 ∧ (State.powerOn c).ctlZlp = false :=
  ⟨rfl, rfl, rfl, rfl, rfl, rfl, rfl, rfl, rfl, rfl, rfl⟩

/-- R36, R37: every descriptor is the CPU's and holds the address of its own buffer. -/
@[simp] theorem powerOn_bd (c : Config) (e : BdId) :
    (State.powerOn c).bd e =
      { own := .cpu, dts := 0, cnt := 0, adr := BitVec.ofNat 16 (epBuffer c e).1, stall := false, pid := .out } := by
  cases e <;> simp [State.bd, State.powerOn, State.idleBd, epBuffer]

/-- Endpoint 1, R39: disabled. -/
@[simp] theorem powerOn_endpointOne (c : Config) :
    (State.powerOn c).ep1Enabled = false ∧ (State.powerOn c).ep1OutDts = 0 ∧ (State.powerOn c).ep1InDts = 0 :=
  ⟨rfl, rfl, rfl⟩

/-- The condition flags and the completion queue, R40, R41: all clear. -/
@[simp] theorem powerOn_flags (c : Config) :
    (State.powerOn c).spiIf = false ∧ usbTrnIf (State.powerOn c) = false ∧ (State.powerOn c).busResetIf = false ∧
    (State.powerOn c).busOtherIf = false ∧ (State.powerOn c).timerIf = false ∧ (State.powerOn c).trnFifo = [] :=
  ⟨rfl, rfl, rfl, rfl, rfl, rfl⟩

/-- The fatal signal, the fault record and the trace, R42, R38: nothing recorded yet. -/
@[simp] theorem powerOn_records (c : Config) :
    (State.powerOn c).fatal = false ∧ (State.powerOn c).faults = [] ∧ (State.powerOn c).trace = [] :=
  ⟨rfl, rfl, rfl⟩

/-- R53: no address holds a value before a step has written it. -/
@[simp] theorem powerOn_ram_read? (c : Config) (a : Nat) : (State.powerOn c).ram.read? a = none := rfl

@[simp] theorem powerOn_cfg (c : Config) : (State.powerOn c).cfg = c := rfl

/-! ### The reset sequence, R291 -/

/-- R291's pseudocode: the reset sequence is `Arm(EP0_OUT, P_ADDR_EP0_OUT, P_EP0_MAX, 0)` on the power-on state. -/
theorem resetWith_eq_arm (c : Config) :
    State.resetWith c = arm .ep0Out c.addrEp0Out (BitVec.ofNat 10 pEp0Max) 0 (State.powerOn c) := by
  have hcpu : ((State.powerOn c).bd .ep0Out).own = .cpu := by rw [powerOn_bd]
  rw [arm_cpu _ _ _ hcpu]
  rfl

/-- It is also `ArmEp0Out` (R198): with no transfer in progress the expected toggle is 0. -/
theorem resetWith_eq_armEp0Out (c : Config) : State.resetWith c = armEp0Out (State.powerOn c) := by
  have htoggle : ep0OutToggle (State.powerOn c) = 0 := by simp [ep0OutToggle]
  rw [resetWith_eq_arm, armEp0Out, htoggle, powerOn_cfg]

/-- The reset sequence in the terms of the statements: `EP0_OUT` armed for 32 bytes, and nothing else changed. -/
theorem resetWith_eq_armedEp0Out (c : Config) : State.resetWith c = armedEp0Out 0 (State.powerOn c) := by
  have hcpu : (State.powerOn c).bdEp0Out.own = .cpu := congrArg BufferDescriptor.own (powerOn_bd c .ep0Out)
  have htoggle : expectedOutToggle (State.powerOn c) = 0 := by simp [expectedOutToggle]
  rw [resetWith_eq_armEp0Out, armEp0Out_eq hcpu, htoggle]

/-- R291: the trace after reset is the one entry of that `Arm`. -/
theorem resetWith_trace (c : Config) : (State.resetWith c).trace = [.arm .ep0Out 32 0] := by
  simp [resetWith_eq_armedEp0Out, armedEp0Out]

/-- Settles O1: power-on group by group, then the reset sequence as an `Arm` of a CPU-owned `EP0_OUT`. -/
theorem resetState : Obligations.ResetState := by
  intro c
  refine ⟨?powerOn, resetWith_eq_armedEp0Out c, resetWith_trace c⟩
  case powerOn =>
    simp only [powerOn_engine, powerOn_display, powerOn_control, powerOn_bd, powerOn_endpointOne, powerOn_flags,
      powerOn_records, powerOn_ram_read?, powerOn_cfg, implies_true, and_self]

end Sys2Proof.Machine
end

section
/-! PROOFS. The completion callbacks of `spec/40_spi_engine.md` R122: what each callback runs, what `InitDone`
(`spec/41_display_keyscan.md` R146) writes, and the instructions that call them. -/

namespace Sys2Proof.Machine

open Sys2Proof

/-! ### The instructions, as the operations they run -/

/-- R122, as a call: it is never stuck. -/
theorem exec_callInvokeCallback (cb : Callback) (s : State) :
    exec (.callInvokeCallback cb) s = .next (invokeCallback cb s) := rfl

/-- R146, as a call. -/
theorem exec_callInitDone (s : State) : exec .callInitDone s = .next (initDone s) := rfl

/-- R153, as a call. -/
theorem exec_callKeyReadDone (s : State) : exec .callKeyReadDone s = .next (keyReadDone s) := rfl

/-! ### The dispatch of R122, callback by callback -/

/-- `CB_NONE` is skipped. -/
@[simp] theorem invokeCallback_none (s : State) : invokeCallback .none s = s := rfl

/-- `CB_INIT_DONE` calls `InitDone`. -/
@[simp] theorem invokeCallback_initDone (s : State) : invokeCallback .initDone s = initDone s := rfl

/-- `CB_KEY_READ_DONE` calls `KeyReadDone`. -/
@[simp] theorem invokeCallback_keyReadDone (s : State) : invokeCallback .keyReadDone s = keyReadDone s := rfl

/-! ### What `InitDone` writes -/

/-- The whole-state form of `setKeyIe`: `key_ie` and its trace entry (R30). -/
theorem setKeyIe_eq (b : Bool) (s : State) :
    setKeyIe b s = { s with keyIe := b, trace := s.trace ++ [.keyIe b] } := rfl

/-- R146: `key_ie` set and reported; `key_if` and every other field as they stand. -/
theorem initDone_eq (s : State) : initDone s = { s with keyIe := true, trace := s.trace ++ [.keyIe true] } :=
  setKeyIe_eq true s

/-- Settles O16: the dispatch of R122 callback by callback, with `InitDone` in its whole-state form. -/
theorem callbacksRun : Obligations.CallbacksRun := by
  intro s
  refine ⟨?none, ?callInitDone, ?initDone, keyReadDone s, exec_callKeyReadDone s, ?keyReadDone⟩
  case none => rw [exec_callInvokeCallback, invokeCallback_none]
  case callInitDone => rw [exec_callInitDone, initDone_eq]
  case initDone => rw [exec_callInvokeCallback, invokeCallback_initDone, initDone_eq]
  case keyReadDone => rw [exec_callInvokeCallback, invokeCallback_keyReadDone]

end Sys2Proof.Machine
end

section
/-! PROOFS. The requests of the display driver, `spec/41_display_keyscan.md` R145, R148, R150: each writes a buffer of
its own and requests the exchange of what it wrote. Then `KeyReadDone` (R153, R154), which requests a display of the
swapped values. -/

namespace Sys2Proof.Machine

open Sys2Proof

/-! ### The instructions, as the operations they run -/

/-- R145, as a call. -/
theorem exec_callInitialize (s : State) : exec .callInitialize s = .next (initializeChip s) := rfl

/-- R148, as a call. -/
theorem exec_callTerminate (s : State) : exec .callTerminate s = .next (terminate s) := rfl

/-- R150, as a call. -/
theorem exec_callDisplayValues (v0 v1 : StoredValue) (s : State) :
    exec (.callDisplayValues v0 v1) s = .next (displayValues v0 v1 s) := rfl

/-- R227, as a call. -/
theorem exec_callNotifyNewValues (s : State) : exec .callNotifyNewValues s = .next (notifyNewValues s) := rfl

/-! ### A request on a buffer of the driver -/

/-- R120 after a write that fills one of the driver's buffers, which the SIE never owns: the exchange starts on a ready
engine with the first byte written; on any other the request is lost and the bytes stay. -/
theorem driver_request {s : State} {i : Nat} {buf : Word16} {len b : Byte} {bytes : List Byte} (cb : Callback)
    (hregion : s.cfg.regions[i]? = some (buf.toNat, bytes.length)) (hi : i < 5) (hfirst : bytes.head? = some b)
    (hl : len ≠ 0) (he : len.toNat % 2 = 0) :
    (engineReady s → startExchange buf len cb (coreWrite buf.toNat bytes s) =
      exchangeStarted buf len cb b { s with ram := s.ram.setAll buf.toNat bytes }) ∧
    (¬engineReady s → startExchange buf len cb (coreWrite buf.toNat bytes s) =
      signalled (slotFailures s) { s with ram := s.ram.setAll buf.toNat bytes }) := by
  have hown : sieOwnsRange s buf.toNat bytes.length = false := sieOwnsRange_driver s hregion hi le_rfl le_rfl
  obtain ⟨rest, rfl⟩ := List.head?_eq_some_iff.1 hfirst
  exact ⟨fun h => write_request_ready cb hown rfl h hl he, fun h => write_request_lost buf cb hown h hl he⟩

/-- The first byte `Initialize` sends (R141). -/
theorem initBytes_head? (c : Config) : (initBytes c).head? = some (0#1 ++ c.regScanLimit) := by
  rw [initBytes_eq, List.head?_cons]

/-- The first byte `Terminate` sends (R142). -/
theorem termBytes_head? (c : Config) : (termBytes c).head? = some (0#1 ++ c.regConfig) := by
  rw [termBytes_eq, List.head?_cons]

/-- Settles O17: a request on the ten bytes of R141, in the first of the driver's buffers. -/
theorem initializeRuns : Obligations.InitializeRuns := by
  intro s
  have ⟨hready, hlost⟩ := driver_request (s := s) (i := 0) (len := 10) .initDone rfl (by decide)
    (initBytes_head? s.cfg) (by decide) (by decide)
  rw [← initBytes_eq, exec_callInitialize]
  exact ⟨_, storedAt_setAll s _ _, fun h => congrArg _ (hready h), fun h => congrArg _ (hlost h)⟩

/-- Settles O18: the key interrupt is disabled first, and the request of the four bytes of R142 is made from there. -/
theorem terminateRuns : Obligations.TerminateRuns := by
  intro s
  have ⟨hready, hlost⟩ := driver_request (s := setKeyIe false s) (i := 1) (len := 4) .none rfl (by decide)
    (termBytes_head? s.cfg) (by decide) (by decide)
  rw [← termBytes_eq, exec_callTerminate]
  exact ⟨_, storedAt_setAll s _ _, fun h => congrArg _ (hready h), fun h => congrArg _ (hlost h)⟩

/-! ### Digit bytes, R95 and R151 -/

/-- D17: the decimal-point mask is one bit among bits 7:4. -/
theorem dpMask_cases (c : Config) :
    c.dpMask = 0x10 ∨ c.dpMask = 0x20 ∨ c.dpMask = 0x40 ∨ c.dpMask = 0x80 := by
  have h := c.admissible
  simp only [RawConfig.admissible, RawConfig.digitsOk, Bool.and_eq_true] at h
  obtain ⟨⟨⟨⟨⟨-, -, hmask⟩, -⟩, -⟩, -⟩, -⟩ := h
  simpa using hmask

/-- The mask lies in the high nibble. -/
theorem dpMask_high (c : Config) : c.dpMask &&& 0xF0 = c.dpMask := by
  rcases dpMask_cases c with h | h | h | h <;> rw [h] <;> rfl

/-- A nibble leaves the high nibble of its byte clear. -/
theorem nibble_high (x : BitVec 4) : x.setWidth 8 &&& (0xF0 : Byte) = 0#8 := by
  revert x; decide

/-- Of any value, a digit byte's high nibble is the decimal-point bit on digit `dp_pos` and 0 on any other. -/
theorem digitByte_high (c : Config) (dp : DigitId) (n : Nat) (v : StoredValue) (i : DigitId) :
    digitByte c dp n v i.val &&& 0xF0 = if i = dp then c.dpMask else 0 := by
  rw [digitByte, BitVec.and_or_distrib_right, nibble_high, BitVec.zero_or]
  simp only [Fin.val_inj]
  split
  · exact dpMask_high c
  · rfl

/-- R151: of a value with digits, a digit byte is the decimal digit beside the decimal-point bit. -/
theorem digitByte_of_le (c : Config) (dp : DigitId) (n : Nat) {v : StoredValue} (i : DigitId)
    (hv : v.toNat ≤ 999999) :
    digitByte c dp n v i.val = BitVec.ofNat 8 (v.toNat / 10 ^ i.val % 10) ||| if i = dp then c.dpMask else 0 := by
  have hdigit : v.toNat / 10 ^ i.val % 10 < 16 := by omega
  have hbcd : (bcd n v i.val).setWidth 8 = BitVec.ofNat 8 (v.toNat / 10 ^ i.val % 10) := by
    rw [bcd, pValueMax_eq, if_pos hv]
    exact BitVec.setWidth_ofNat_of_le_of_lt (by decide) hdigit
  rw [digitByte, hbcd]
  simp only [Fin.val_inj]

/-- A value with digits takes no draw (R151). -/
theorem digitDraws_of_le {v : StoredValue} (hv : v.toNat ≤ 999999) : digitDraws v = 0 := if_pos hv

/-! ### The bytes of a display, R143 -/

/-- The register byte of digit `i` of a display. -/
theorem displayFrames_register (c : Config) (dp : DigitId) (n : Nat) (d : DisplayId) (v : StoredValue) (i : DigitId) :
    (displayFrames c dp n d v)[2 * i.val]? = some (0#1 ++ c.digitRegister d i) := by
  rw [displayFrames_eq]
  fin_cases i <;> rfl

/-- The data byte of digit `i` of a display. -/
theorem displayFrames_data (c : Config) (dp : DigitId) (n : Nat) (d : DisplayId) (v : StoredValue) (i : DigitId) :
    (displayFrames c dp n d v)[2 * i.val + 1]? = some (digitByte c dp n v i.val) := by
  rw [displayFrames_eq]
  fin_cases i <;> rfl

/-- A display takes twelve bytes. -/
theorem displayFrames_length (c : Config) (dp : DigitId) (n : Nat) (d : DisplayId) (v : StoredValue) :
    (displayFrames c dp n d v).length = 12 := by
  rw [displayFrames_eq]; rfl

/-- The bytes of display `d` stand from place `12 d` on. The draws of display 1 follow those of display 0. -/
theorem dispBytes_get (c : Config) (dp : DigitId) (n : Nat) (v0 v1 : StoredValue) (d : DisplayId) {k : Nat}
    (hk : k < 12) : (dispBytes c dp n v0 v1)[12 * d.val + k]? =
      (displayFrames c dp (if d = 0 then n else n + digitDraws v0) d (if d = 0 then v0 else v1))[k]? := by
  have h0 := displayFrames_length c dp n 0 v0
  rw [dispBytes]
  fin_cases d
  · rw [List.getElem?_append_left (by simp; omega)]
    simp
  · rw [List.getElem?_append_right (by simp; omega), h0]
    simp

/-- The register byte of frame `6 d + i`. -/
theorem dispBytes_register (c : Config) (dp : DigitId) (n : Nat) (v0 v1 : StoredValue) (d : DisplayId) (i : DigitId) :
    (dispBytes c dp n v0 v1)[2 * (6 * d.val + i.val)]? = some (0#1 ++ c.digitRegister d i) := by
  have hi := digitId_lt i
  rw [show 2 * (6 * d.val + i.val) = 12 * d.val + 2 * i.val by ring, dispBytes_get c dp n v0 v1 d (by omega),
    displayFrames_register]

/-- The data byte of frame `6 d + i`. -/
theorem dispBytes_data (c : Config) (dp : DigitId) (n : Nat) (v0 v1 : StoredValue) (d : DisplayId) (i : DigitId) :
    (dispBytes c dp n v0 v1)[2 * (6 * d.val + i.val) + 1]? =
      some (digitByte c dp (if d = 0 then n else n + digitDraws v0) (if d = 0 then v0 else v1) i.val) := by
  have hi := digitId_lt i
  rw [show 2 * (6 * d.val + i.val) + 1 = 12 * d.val + (2 * i.val + 1) by ring,
    dispBytes_get c dp n v0 v1 d (by omega), displayFrames_data]

/-- The first byte `DisplayValues` sends. -/
theorem dispBytes_head? (c : Config) (dp : DigitId) (n : Nat) (v0 v1 : StoredValue) :
    (dispBytes c dp n v0 v1).head? = some (0#1 ++ c.digitRegister 0 0) := by
  rw [List.head?_eq_getElem?]
  exact dispBytes_register c dp n v0 v1 0 0

/-- The state of `DisplayValues` between its stores of the values and the write of its buffer (R150). -/
def valuesStored (v0 v1 : StoredValue) (s : State) : State :=
  { s with value0 := v0, value1 := v1, draws := s.draws + digitDraws v0 + digitDraws v1 }

/-- R150: the values stored, the buffer written, the exchange requested. -/
theorem displayValues_eq (v0 v1 : StoredValue) (s : State) :
    displayValues v0 v1 s = startExchange s.cfg.addrBufDisp 24 .none
      (coreWrite s.cfg.addrBufDisp.toNat (dispBytes s.cfg s.dpPos s.draws v0 v1) (valuesStored v0 v1 s)) := rfl

/-- Settles O19: the bytes frame by frame, and the request on them with the values stored. -/
theorem displayValuesRuns : Obligations.DisplayValuesRuns := by
  intro s v0 v1
  have ⟨hready, hlost⟩ := driver_request (s := valuesStored v0 v1 s) (i := 2) (len := 24) .none rfl (by decide)
    (dispBytes_head? s.cfg s.dpPos s.draws v0 v1) (by decide) (by decide)
  rw [exec_callDisplayValues, displayValues_eq]
  refine ⟨_, dispBytes s.cfg s.dpPos s.draws v0 v1, s.draws + digitDraws v0 + digitDraws v1, dispBytes_length ..,
    storedAt_setAll s _ _, dispBytes_register _ _ _ _ _, ?digits, ?point, ?draws, fun h => congrArg _ (hready h),
    fun h => congrArg _ (hlost h)⟩
  case digits =>
    intro d i hv
    rw [dispBytes_data, digitByte_of_le _ _ _ _ hv]
  case point =>
    intro d i
    exact ⟨_, dispBytes_data .., digitByte_high ..⟩
  case draws =>
    intro h0 h1
    rw [digitDraws_of_le h0, digitDraws_of_le h1, add_zero, add_zero]

/-! ### `KeyReadDone`, R153 and R154 -/

/-- R154: the gate. -/
theorem keyPressed_iff (c : Config) (k : Byte) :
    keyPressed c k = true ↔ c.keyGate = .ungated ∨ k &&& c.keyPressedMask ≠ 0 := by
  cases h : c.keyGate <;> simp [keyPressed, h]

/-- The debounced-key byte: what stands in the second slot of the key buffer, a draw where nothing was written. -/
def keyByte (s : State) : Byte :=
  (s.ram.read? (s.cfg.addrBufKey.toNat + 1)).getD (Config.freeByte s.draws)

/-- The state after the debounced-key byte is read. -/
def keyByteRead (s : State) : State := afterRead (s.cfg.addrBufKey.toNat + 1) 1 s

/-- R153 as its read, its gate and its swap; the slot is in a buffer of the driver, which the SIE never owns. -/
theorem keyReadDone_eq (s : State) :
    keyReadDone s = if keyPressed s.cfg (keyByte s) then swapValues (keyByteRead s) else keyByteRead s := by
  have hown : sieOwnsRange s (s.cfg.addrBufKey.toNat + 1) 1 = false :=
    sieOwnsRange_driver s (i := 3) rfl (by decide) (Nat.le_succ _) le_rfl
  have hbyte : (readBytes s (s.cfg.addrBufKey.toNat + 1) 1).headD 0 = keyByte s := rfl
  rw [keyReadDone, hbyte, afterCoreRead_cpu hown]
  rfl

/-- A written key byte is read as it stands, and its read changes nothing. -/
theorem keyByte_written {s : State} {b : Byte} (h : s.ram.read? (s.cfg.addrBufKey.toNat + 1) = some b) :
    keyByte s = b ∧ keyByteRead s = s := by
  refine ⟨by rw [keyByte, h, Option.getD_some], afterRead_written fun k hk => ?_⟩
  obtain rfl : k = 0 := by omega
  rw [add_zero, h, Option.isSome_some]

/-- R53: a key byte nothing has written is one recorded draw. -/
theorem keyByteRead_unwritten {s : State} (h : s.ram.read? (s.cfg.addrBufKey.toNat + 1) = none) :
    keyByteRead s = { modelFaulted .unwrittenRead s with draws := s.draws + 1 } := by
  have ht : touchesUnwritten s.ram (s.cfg.addrBufKey.toNat + 1) 1 = true :=
    (touchesUnwritten_iff _ _ _).2 ⟨0, by decide, h⟩
  rw [keyByteRead, afterRead, if_pos ht]
  rfl

/-- The read of the key byte leaves the displayed values as they are. -/
theorem keyByteRead_values (s : State) :
    (keyByteRead s).value0 = s.value0 ∧ (keyByteRead s).value1 = s.value1 := by
  simp [keyByteRead]

/-- R153: the swap after the read of the key byte is `DisplayValues` of the values exchanged, then
`NotifyNewValues`. -/
theorem swapValues_keyByteRead (s : State) :
    swapValues (keyByteRead s) = notifyNewValues (displayValues s.value1 s.value0 (keyByteRead s)) := by
  have ⟨h0, h1⟩ := keyByteRead_values s
  rw [swapValues, h0, h1]

/-- Settles O22: the read of the key byte, then the two sides of the gate. -/
theorem keyReadDoneRuns : Obligations.KeyReadDoneRuns := by
  intro s
  refine ⟨keyByte s, keyByteRead s, fun _ => keyByte_written, fun h => ⟨_, keyByteRead_unwritten h⟩, ?pass, ?block⟩
  case pass =>
    intro hgate
    refine ⟨_, _, exec_callDisplayValues .., exec_callNotifyNewValues _, ?_⟩
    rw [exec_callKeyReadDone, keyReadDone_eq, if_pos ((keyPressed_iff ..).2 hgate), swapValues_keyByteRead]
  case block =>
    rintro ⟨hgated, hmask⟩
    have hgate : ¬keyPressed s.cfg (keyByte s) = true := by simp [keyPressed_iff, hgated, hmask]
    rw [exec_callKeyReadDone, keyReadDone_eq, if_neg hgate]

end Sys2Proof.Machine
end

section
/-! PROOFS. The requests of the control endpoint, `spec/42_usb_ep0.md` R178 to R194, on an `EP0_IN` the CPU owns: a
read of a descriptor table starts, an accepted request arms the status IN, a rejected one stalls. -/

namespace Sys2Proof.Machine

open Sys2Proof

/-! ### The shared operations, as whole-state updates -/

/-- R250: one cause of the fatal signal. -/
theorem raiseFatal_eq (c : FatalCause) (s : State) : raiseFatal c s = signalled [c] s := by
  simp [raiseFatal, emit, signalled]

/-- R192: the stall, then the cause. -/
theorem rejectRequest_eq {s : State} (c : FatalCause) (hcpu : s.bdEp0In.own = .cpu) :
    rejectRequest c s = signalled [c] (stalledEp0In s) := by
  rw [rejectRequest, stall_ep0In hcpu, raiseFatal_eq]

/-- R228, as a call. -/
theorem exec_callEp1Enable (s : State) : exec .callEp1Enable s = .next (ep1Enable s) := rfl

/-- R229, as a call. -/
theorem exec_callEp1Disable (s : State) : exec .callEp1Disable s = .next (ep1Disable s) := rfl

/-! ### Descriptor reads, R178 -/

/-- R180, R181, R182, R189: the requests that read a table, each with the table it reads. -/
def ReadsTable (i : Instr) (table : DescId) (lo : Byte) (wIndex wLength : Word16) : Prop :=
  (i = .getDescriptorDevice lo wIndex wLength ∧ table = .device) ∨
  (i = .getDescriptorConfiguration lo wIndex wLength ∧ table = .config) ∨
  (i = .getDescriptorString 0 wIndex wLength ∧ table = .string0) ∨
  (i = .getDescriptorString 1 wIndex wLength ∧ table = .string1) ∨
  (i = .getDescriptorString 2 wIndex wLength ∧ table = .string2) ∨
  (i = .getDescriptorReport lo wIndex wLength ∧ table = .report)

/-- Each of them is `StartControlRead` of its table. -/
theorem exec_readsTable {i : Instr} {table : DescId} {lo : Byte} {wIndex wLength : Word16}
    (h : ReadsTable i table lo wIndex wLength) (s : State) :
    exec i s = outcome (startControlRead table wLength s) := by
  rcases h with ⟨rfl, rfl⟩ | ⟨rfl, rfl⟩ | ⟨rfl, rfl⟩ | ⟨rfl, rfl⟩ | ⟨rfl, rfl⟩ | ⟨rfl, rfl⟩ <;> rfl

/-- R178: `StartControlRead` arms the first chunk of the `total` bytes it owes with toggle 1. -/
theorem startControlRead_eq {s : State} {table : DescId} {wLength : Word16} {total n : Nat}
    (hcpu : s.bdEp0In.own = .cpu) (htotal : total = min wLength.toNat (s.cfg.rom table).length)
    (hn : n = min total 32) :
    startControlRead table wLength s = .ok (armedEp0In (BitVec.ofNat 10 n) 1 { s with
      ram := s.ram.setAll s.cfg.addrEp0In.toNat ((s.cfg.rom table).take n)
      ctlDir := .d2h
      ctlSrcTable := table
      ctlSrcOff := BitVec.ofNat 16 n
      ctlRemaining := BitVec.ofNat 16 (total - n)
      ctlToggle := 0
      ctlZlp := decide (s.cfg.ctlZlp = .whenShort ∧ total < wLength.toNat ∧ total % 32 = 0 ∧ 0 < total) }) := by
  have hword : (BitVec.ofNat 16 total).toNat = total := by
    rw [BitVec.toNat_ofNat]
    exact Nat.mod_eq_of_lt (by have := wLength.isLt; omega)
  have hchunk : min n (s.cfg.rom table).length = n := by omega
  have hrest : BitVec.ofNat 16 total - BitVec.ofNat 16 n = BitVec.ofNat 16 (total - n) :=
    BitVec.ofNat_sub_ofNat_of_le _ _ (by omega) (by omega)
  have hzlp : (decide (s.cfg.ctlZlp = .whenShort) && decide (total < wLength.toNat) && decide (total % pEp0Max = 0) &&
      decide (0 < total)) =
      decide (s.cfg.ctlZlp = .whenShort ∧ total < wLength.toNat ∧ total % 32 = 0 ∧ 0 < total) := by
    rw [show decide (total % pEp0Max = 0) = decide (total % 32 = 0) from rfl]
    simp only [Bool.decide_and, Bool.and_assoc]
  simp only [startControlRead, ← htotal, hzlp]
  rw [sendChunk_ok (by simp [hword]; omega), armChunk_eq (by exact hcpu) (by simp)]
  simp [hword, ← hn, hchunk, hrest]

/-- Settles O30: `StartControlRead` of the request's table, its first chunk stored in `ep0_in_buf`. -/
theorem descriptorReadStarts : Obligations.DescriptorReadStarts := by
  intro s i table lo wIndex wLength hi hcpu
  refine ⟨_, _, _, rfl, rfl, storedAt_setAll s _ _, ?_⟩
  rw [exec_readsTable hi, startControlRead_eq hcpu rfl rfl]
  rfl

/-! ### Rejected requests, R183, R184, R192, R194 -/

/-- R182: a string index above 2 names no table. -/
theorem getDescString_unsupported {index : Byte} (h : 2 < index.toNat) (wLength : Word16) (s : State) :
    getDescString index wLength s = .ok (rejectRequest .unsupportedDescriptor s) := by
  have hne (k : Byte) (hk : k.toNat ≤ 2) : index ≠ k := by
    rintro rfl; omega
  rw [getDescString, if_neg (hne 0 (by decide)), if_neg (hne 1 (by decide)), if_neg (hne 2 (by decide))]

/-- R185: an address that does not fit seven bits. -/
theorem setAddressRequest_rejected {v : Word16} (h : 128 ≤ v.toNat) (s : State) :
    setAddressRequest v s = rejectRequest .badSetAddress s := if_pos h

/-- R187: neither 0 nor the supported value. -/
theorem setConfigurationRequest_rejected {cv : Byte} {s : State} (h0 : cv ≠ 0) (hne : cv ≠ s.cfg.configValue) :
    setConfigurationRequest cv s = rejectRequest .badConfiguration s := by
  rw [setConfigurationRequest, if_neg h0, if_neg hne]

/-- R188: an alternate setting other than 0. -/
theorem setInterfaceRequest_rejected {v : Word16} (h : v ≠ 0) (s : State) :
    setInterfaceRequest v s = rejectRequest .nondefaultAltSetting s := if_neg h

/-- R190: a report type other than the output type. -/
theorem setReportRequest_rejected {ty : Byte} (h : ty ≠ 2) (s : State) :
    setReportRequest ty s = rejectRequest .unsupportedReportType s := if_pos h

/-- R183: the stall alone, or with its cause under `P_DQ_FATAL`. -/
theorem getDescQualifier_eq {s : State} (hcpu : s.bdEp0In.own = .cpu) :
    getDescQualifier s =
      if s.cfg.dqFatal then signalled [.deviceQualifier] (stalledEp0In s) else stalledEp0In s := by
  rw [getDescQualifier, stall_ep0In hcpu, raiseFatal_eq]

/-- Settles O31: each request is `Unrecognized` of its cause (R192); DeviceQualifier stalls by its own rule. -/
theorem rejectedRequests : Obligations.RejectedRequests := by
  refine ⟨fun s i c ty x v wIndex wLength h hcpu => ?rejected, fun s lo wIndex wLength hcpu => ?qualifier⟩
  case rejected =>
    rw [← rejectRequest_eq c hcpu]
    rcases h with ⟨rfl, rfl⟩ | ⟨rfl, rfl⟩ | ⟨rfl, hx, rfl⟩ | ⟨rfl, hv, rfl⟩ | ⟨rfl, h0, hne, rfl⟩ | ⟨rfl, hv, rfl⟩ |
      ⟨rfl, hty, rfl⟩ | ⟨rfl, rfl⟩ | ⟨rfl, rfl⟩
    · rfl
    · rfl
    · exact congrArg outcome (getDescString_unsupported hx wLength s)
    · exact congrArg _ (setAddressRequest_rejected hv s)
    · exact congrArg _ (setConfigurationRequest_rejected h0 hne)
    · exact congrArg _ (setInterfaceRequest_rejected hv s)
    · exact congrArg _ (setReportRequest_rejected hty s)
    · rfl
    · rfl
  case qualifier =>
    have hexec : exec (.getDescriptorDeviceQualifier lo wIndex wLength) s = .next (getDescQualifier s) := rfl
    rw [hexec, getDescQualifier_eq hcpu]
    exact ⟨fun hf => by rw [hf]; rfl, fun ht => by rw [ht]; rfl⟩

/-! ### Accepted requests, R185, R188, R190, R191 -/

/-- R185: an address of seven bits is kept pending. -/
theorem setAddressRequest_accepted {v : Word16} (h : v.toNat < 128) (s : State) :
    setAddressRequest v s = statusIn { s with pendAddr := some (BitVec.ofNat 7 v.toNat) } := by
  have haddr : v.extractLsb' 0 7 = BitVec.ofNat 7 v.toNat := by simp [BitVec.extractLsb']
  rw [setAddressRequest, pAddrLimit_eq, if_neg (by omega), haddr]

/-- Settles O32: each request as its rule, which arms the status IN (R179) or awaits the report (R190). -/
theorem acceptedRequests : Obligations.AcceptedRequests := by
  intro s v wIndex wLength hcpu
  refine ⟨fun hv => ?address, congrArg _ (statusIn_eq hcpu), congrArg _ (statusIn_eq hcpu), fun hty => ?report⟩
  case address =>
    calc exec (.setAddress v wIndex wLength) s
      _ = .next (setAddressRequest v s) := rfl
      _ = .next (armedEp0In 0 1 { s with pendAddr := some (BitVec.ofNat 7 v.toNat), ctlStatus := .statusIn }) := by
        rw [setAddressRequest_accepted hv, statusIn_eq (by exact hcpu)]
  case report =>
    have hexec : exec (.hidSetReport v wIndex wLength) s = .next (setReportRequest (v.extractLsb' 8 8) s) := rfl
    rw [hexec, hty]
    rfl

/-! ### `SetConfiguration`, R187 -/

/-- The low byte of `wValue` alone is the configuration value (R187). -/
theorem exec_setConfiguration (v wIndex wLength : Word16) (s : State) :
    exec (.setConfiguration v wIndex wLength) s = .next (setConfigurationRequest (v.extractLsb' 0 8) s) := rfl

/-- R187: configuration 0. -/
theorem setConfigurationRequest_zero (s : State) : setConfigurationRequest 0 s =
    statusIn (if s.configured = true then { ep1Disable s with configured := false } else s) := rfl

/-- R187: the supported configuration. -/
theorem setConfigurationRequest_supported {cv : Byte} {s : State} (h0 : cv ≠ 0) (heq : cv = s.cfg.configValue) :
    setConfigurationRequest cv s =
      statusIn (if s.configured = false then { ep1Enable s with configured := true } else s) := by
  rw [setConfigurationRequest, if_neg h0, if_pos heq]

/-- Settles O33: the three values of R187, the accepted ones with and without a change; neither switch of Endpoint 1
touches `EP0_IN`, so the status IN finds it the CPU's. -/
theorem configurationRequests : Obligations.ConfigurationRequests := by
  intro s v wIndex wLength hcpu
  have hdisabled : (ep1Disable s).bdEp0In.own = .cpu := by simpa using hcpu
  have henabled : (ep1Enable s).bdEp0In.own = .cpu := by simpa using hcpu
  rw [exec_setConfiguration]
  refine ⟨fun h0 => ?zero, fun h0 heq => ?supported, fun h0 hne => ?other⟩
  case zero =>
    rw [h0, setConfigurationRequest_zero]
    refine ⟨fun hc => ⟨_, exec_callEp1Disable s, ?_⟩, fun hc => ?_⟩
    · rw [if_pos hc, statusIn_eq (by exact hdisabled)]
    · rw [if_neg (by simp [hc]), statusIn_eq hcpu]
  case supported =>
    rw [setConfigurationRequest_supported h0 heq]
    refine ⟨fun hc => ⟨_, exec_callEp1Enable s, ?_⟩, fun hc => ?_⟩
    · rw [if_pos hc, statusIn_eq (by exact henabled)]
    · rw [if_neg (by simp [hc]), statusIn_eq hcpu]
  case other =>
    rw [setConfigurationRequest_rejected h0 hne, rejectRequest_eq _ hcpu]

end Sys2Proof.Machine
end

section
/-! PROOFS. The dispatch of a setup packet, `spec/42_usb_ep0.md` R173 to R177, against the rows of the opcode table, and
the completion `EV_USB_EP0_SETUP` (R172), which runs it. -/

namespace Sys2Proof.Machine

open Sys2Proof

/-! ### A CORE read of written bytes -/

/-- R61: a read of written bytes returns them. -/
theorem readBytes_of_bytesAt {s : State} {a : Nat} {bs : List Byte} (h : BytesAt s.ram a bs) :
    readBytes s a bs.length = bs := by
  refine List.ext_getElem? fun k => ?_
  rcases Nat.lt_or_ge k bs.length with hk | hk
  · rw [readBytes_get s a hk, h k hk, List.getElem?_eq_getElem hk, Option.getD_some]
  · rw [List.getElem?_eq_none hk, List.getElem?_eq_none (by simpa using hk)]

/-- R53, R301: where the CPU may read, such a read records nothing. -/
theorem afterCoreRead_of_bytesAt {s : State} {a : Nat} {bs : List Byte} (hown : sieOwnsRange s a bs.length = false)
    (h : BytesAt s.ram a bs) : afterCoreRead a bs.length s = s :=
  afterCoreRead_written hown fun k hk => by
    rw [h k hk, List.getElem?_eq_getElem hk, Option.isSome_some]

/-! ### The dispatch completes, R173 to R177 -/

/-- R182. -/
theorem getDescString_completes (index : Byte) (wLength : Word16) (s : State) :
    ∃ t, getDescString index wLength s = .ok t := by
  unfold getDescString
  split_ifs
  · exact startControlRead_some .string0 wLength s
  · exact startControlRead_some .string1 wLength s
  · exact startControlRead_some .string2 wLength s
  · exact ⟨_, rfl⟩

/-- R174, GetDescriptor of the device. -/
theorem getDescriptorOnDevice_completes (p : SetupPacket) (s : State) :
    ∃ t, getDescriptorOnDevice p s = .ok t := by
  unfold getDescriptorOnDevice
  split_ifs
  · exact startControlRead_some .device p.wLength s
  · exact startControlRead_some .config p.wLength s
  · exact getDescString_completes p.valueLo p.wLength s
  · exact ⟨_, rfl⟩
  · exact ⟨_, rfl⟩

/-- R174. -/
theorem stdDevice_completes (p : SetupPacket) (s : State) : ∃ t, stdDevice p s = .ok t := by
  unfold stdDevice
  split_ifs
  · exact getDescriptorOnDevice_completes p s
  all_goals exact ⟨_, rfl⟩

/-- R175. -/
theorem stdInterface_completes (p : SetupPacket) (s : State) : ∃ t, stdInterface p s = .ok t := by
  unfold stdInterface
  split_ifs
  · exact startControlRead_some .report p.wLength s
  all_goals exact ⟨_, rfl⟩

/-- R177. -/
theorem classInterface_completes (p : SetupPacket) (s : State) : ∃ t, classInterface p s = .ok t := by
  unfold classInterface
  split_ifs
  all_goals exact ⟨_, rfl⟩

/-- R173: a setup packet's dispatch is never stuck. -/
theorem dispatchSetup_completes (p : SetupPacket) (s : State) : ∃ t, dispatchSetup p s = .ok t := by
  unfold dispatchSetup
  split_ifs
  · exact stdDevice_completes p s
  · exact stdInterface_completes p s
  · exact ⟨_, rfl⟩
  · exact classInterface_completes p s
  · exact ⟨_, rfl⟩

/-! ### The dispatch is the table, R90 to R92

R173 looks at type and recipient first and R92 at the rows in their order. For one value of `bmRequestType` only its own
rows are left of the table, and they are the rows of its recipient's rule. -/

/-- The device's standard requests, in either direction (R174). -/
theorem typeRecipient_device (b : Byte) : b.extractLsb' 0 7 = 0x00 ↔ b = 0x00 ∨ b = 0x80 := by
  revert b; decide

/-- The interface's standard requests (R175). -/
theorem typeRecipient_interface (b : Byte) : b.extractLsb' 0 7 = 0x01 ↔ b = 0x01 ∨ b = 0x81 := by
  revert b; decide

/-- The interface's class requests (R177). -/
theorem typeRecipient_class (b : Byte) : b.extractLsb' 0 7 = 0x21 ↔ b = 0x21 ∨ b = 0xA1 := by
  revert b; decide

/-- R174: the standard requests of the device. -/
theorem exec_decodeSetup_device {p : SetupPacket} (h : p.typeRecipient = 0x00) (s : State) :
    exec (decodeSetup p) s = outcome (stdDevice p s) := by
  rcases (typeRecipient_device _).1 h with hb | hb
  · simp only [decodeSetup, stdDevice, hb, BitVec.reduceEq, true_and, false_and, ↓reduceIte]
    split_ifs <;> rfl
  · by_cases hr : p.bRequest = 0x06
    · simp only [decodeSetup, stdDevice, getDescriptorOnDevice, hb, hr, true_and, ↓reduceIte]
      split_ifs <;> rfl
    · simp only [decodeSetup, stdDevice, hb, hr, BitVec.reduceEq, false_and, and_false, ↓reduceIte]
      rfl

/-- R175: the standard requests of the interface. -/
theorem exec_decodeSetup_interface {p : SetupPacket} (h : p.typeRecipient = 0x01) (s : State) :
    exec (decodeSetup p) s = outcome (stdInterface p s) := by
  rcases (typeRecipient_interface _).1 h with hb | hb
  · simp only [decodeSetup, stdInterface, hb, BitVec.reduceEq, true_and, false_and, ↓reduceIte]
    split_ifs <;> rfl
  · by_cases hr : p.bRequest = 0x06
    · simp only [decodeSetup, stdInterface, hb, hr, BitVec.reduceEq, true_and, false_and, ↓reduceIte]
      split_ifs <;> rfl
    · simp only [decodeSetup, stdInterface, hb, hr, BitVec.reduceEq, false_and, and_false, ↓reduceIte]
      rfl

/-- R177: the class requests of the interface. -/
theorem exec_decodeSetup_class {p : SetupPacket} (h : p.typeRecipient = 0x21) (s : State) :
    exec (decodeSetup p) s = outcome (classInterface p s) := by
  rcases (typeRecipient_class _).1 h with hb | hb
  · simp only [decodeSetup, classInterface, hb, BitVec.reduceEq, true_and, false_and, ↓reduceIte]
    split_ifs <;> rfl
  · simp only [decodeSetup, classInterface, hb, BitVec.reduceEq, true_and, false_and, ↓reduceIte]
    split_ifs <;> rfl

/-- R176, R173: a packet of any other type or recipient is unrecognized. -/
theorem exec_decodeSetup_other {p : SetupPacket} (hdevice : p.typeRecipient ≠ 0x00)
    (hinterface : p.typeRecipient ≠ 0x01) (hclass : p.typeRecipient ≠ 0x21) (s : State) :
    exec (decodeSetup p) s = outcome (.ok (rejectRequest .unrecognizedRequest s)) := by
  simp only [SetupPacket.typeRecipient, ne_eq, typeRecipient_device, typeRecipient_interface, typeRecipient_class,
    not_or] at hdevice hinterface hclass
  simp only [decodeSetup, hdevice, hinterface, hclass, false_and, ↓reduceIte]
  rfl

/-- R173: running the instruction a packet decodes to is dispatching the packet. -/
theorem exec_decodeSetup (p : SetupPacket) (s : State) : exec (decodeSetup p) s = outcome (dispatchSetup p s) := by
  unfold dispatchSetup
  split_ifs with hdevice hinterface hendpoint hclass
  · exact exec_decodeSetup_device hdevice s
  · exact exec_decodeSetup_interface hinterface s
  · exact exec_decodeSetup_other hdevice hinterface (by rw [hendpoint]; decide) s
  · exact exec_decodeSetup_class hclass s
  · exact exec_decodeSetup_other hdevice hinterface hclass s

/-! ### `OnSetup` and its completion, R172 -/

/-- The queue's only completion, consumed (R259). -/
theorem popTrn_single {s : State} {e : BitVec 4 × Dir} (h : s.trnFifo = [e]) : popTrn s = { s with trnFifo := [] } := by
  rw [popTrn, h, List.tail_cons]

/-- R259: after the handler of the last completion nothing is left to drain. -/
theorem thenDrain_ok {t : State} (h : t.trnFifo = []) : thenDrain (.ok t) = .ok t := by
  simp only [thenDrain, usbTransaction, h, drain]

/-- R172: the eight bytes of an `EP0_OUT` the CPU owns are the packet whose request runs. -/
theorem onSetup_eq {s t : State} {bytes : List Byte} (hcpu : s.bdEp0Out.own = .cpu) (hlength : bytes.length = 8)
    (hbytes : BytesAt s.ram s.cfg.addrEp0Out.toNat bytes)
    (ht : dispatchSetup (.ofBytes bytes) (transferCancelled s) = .ok t) :
    onSetup s = .ok (armedEp0Out (expectedOutToggle t) t) := by
  have hown : sieOwnsRange s s.cfg.addrEp0Out.toNat bytes.length = false :=
    sieOwnsRange_endpoint s .ep0Out hcpu le_rfl (by simp [epBuffer, hlength])
  have hread := readBytes_of_bytesAt hbytes
  have hafter := afterCoreRead_of_bytesAt hown hbytes
  have hframe : t.bdEp0Out = s.bdEp0Out := by simp [dispatchSetup_frame _ ht, transferCancelled]
  rw [hlength] at hread hafter
  simp only [onSetup, hread, hafter, cancelTransfer_eq, ht]
  rw [armEp0Out_eq (by rw [hframe, hcpu])]

/-- Settles O35: the dispatch of the packet, which is its instruction (R92), between the cancel and the arm of R172. -/
theorem setupRuns : Obligations.SetupRuns := by
  intro s b0 b1 b2 b3 b4 b5 b6 b7 hqueue hpid hcpu hbytes
  obtain ⟨t, ht⟩ := dispatchSetup_completes (.ofBytes [b0, b1, b2, b3, b4, b5, b6, b7])
    (transferCancelled { s with trnFifo := [] })
  have hempty : t.trnFifo = [] := by simp [dispatchSetup_frame _ ht, transferCancelled]
  refine ⟨t, (exec_decodeSetup ..).trans (congrArg outcome ht), ?_⟩
  have hhead : headIs 0 .out s = true ∧ s.bdEp0Out.pid = .setup := ⟨by simp [headIs, hqueue], hpid⟩
  calc exec .evUsbEp0Setup s
    _ = outcome (thenDrain (onSetup (readField .ep0Out { s with trnFifo := [] }))) := by
      rw [← popTrn_single hqueue]
      exact if_pos hhead
    _ = outcome (thenDrain (.ok (armedEp0Out (expectedOutToggle t) t))) := by
      rw [readField_cpu (by exact hcpu), onSetup_eq (by exact hcpu) rfl (by exact hbytes) ht]
    _ = .next (armedEp0Out (expectedOutToggle t) t) := by
      rw [thenDrain_ok (by exact hempty)]
      rfl

end Sys2Proof.Machine
end

section
/-! PROOFS. The completion `EV_USB_EP0_OUT` in a control write, `spec/42_usb_ep0.md` R195, R197: the packet copied to
the sink buffer, the end of the stage, and what the sink does with the report. -/

namespace Sys2Proof.Machine

open Sys2Proof

/-! ### The values of a report, R89 -/

/-- Zero extension of three fields by four bits. -/
theorem setWidth_append_append {a b c : Nat} (x : BitVec a) (y : BitVec b) (z : BitVec c) :
    (x ++ y ++ z).setWidth (4 + a + b + c) = 0#4 ++ x ++ y ++ z := by
  refine BitVec.eq_of_getLsbD_eq fun i hi => ?_
  simp only [BitVec.getLsbD_setWidth, BitVec.getLsbD_append, hi, decide_true, Bool.true_and]
  split_ifs with hz hy hx
  · rfl
  · rfl
  · rfl
  · rw [BitVec.getLsbD_of_ge _ _ (by omega), BitVec.getLsbD_zero]

/-- R89: value0. -/
theorem decodeReport0_eq (r0 r1 r2 r3 r4 : Byte) :
    decodeReport0 [r0, r1, r2, r3, r4] = 0#4 ++ r2.extractLsb' 0 4 ++ r1 ++ r0 :=
  setWidth_append_append (r2.extractLsb' 0 4) r1 r0

/-- R89: value1. -/
theorem decodeReport1_eq (r0 r1 r2 r3 r4 : Byte) :
    decodeReport1 [r0, r1, r2, r3, r4] = 0#4 ++ r4 ++ r3 ++ r2.extractLsb' 4 4 :=
  setWidth_append_append r4 r3 (r2.extractLsb' 4 4)

/-! ### The toggle of the next OUT, R198 -/

/-- In a control write. -/
theorem expectedOutToggle_write {s : State} (h : s.ctlDir = .h2d) : expectedOutToggle s = s.ctlToggle := if_pos h

/-- Before the status IN of a control write. -/
theorem expectedOutToggle_statusIn {s : State} (hdir : s.ctlDir = .none) (hstatus : s.ctlStatus = .statusIn) :
    expectedOutToggle s = 0 := by
  simp [expectedOutToggle, hdir, hstatus]

/-! ### The sink, R195 -/

/-- The SIE never owns a byte of the sink buffer (R70). -/
theorem sieOwnsRange_sink (s : State) {k n : Nat} (h : k + n ≤ 32) :
    sieOwnsRange s (s.cfg.addrBufSetrep.toNat + k) n = false :=
  sieOwnsRange_driver s (i := 4) rfl (by decide) (Nat.le_add_right _ _) (by simp only [pEp0Max_eq]; omega)

/-- A report the sink leaves alone: `DISCARD`, or fewer than five bytes. -/
theorem setReportSink_ignored {m : Word16} {s : State} (h : s.cfg.setReportSink = .discard ∨ m.toNat < 5) :
    setReportSink m s = s := by
  unfold setReportSink
  split
  next => rfl
  next hdisplay =>
    have hshort : m.toNat < 5 := h.resolve_left (by simp [hdisplay])
    exact if_neg (by simpa using hshort)

/-- `DISPLAY`: the first five bytes of the sink buffer, written, are displayed as a report. -/
theorem setReportSink_display {m : Word16} {s : State} {r0 r1 r2 r3 r4 : Byte} (h : s.cfg.setReportSink = .display)
    (hm : 5 ≤ m.toNat) (hbytes : BytesAt s.ram s.cfg.addrBufSetrep.toNat [r0, r1, r2, r3, r4]) :
    setReportSink m s = displayValues (0#4 ++ r2.extractLsb' 0 4 ++ r1 ++ r0)
      (0#4 ++ r4 ++ r3 ++ r2.extractLsb' 4 4) s := by
  have hread : readBytes s s.cfg.addrBufSetrep.toNat 5 = [r0, r1, r2, r3, r4] := readBytes_of_bytesAt hbytes
  have hafter : afterCoreRead s.cfg.addrBufSetrep.toNat 5 s = s :=
    afterCoreRead_of_bytesAt (sieOwnsRange_sink s (k := 0) (n := 5) (by decide)) hbytes
  simp only [setReportSink, h, pReportLen_eq, if_pos hm, hread, hafter, decodeReport0_eq, decodeReport1_eq]

/-! ### A packet of the data stage, R195 -/

/-- The state after the bytes of a packet of `BD[EP0_OUT].cnt` bytes are copied and counted. -/
def packetStored (bytes : List Byte) (s : State) : State :=
  { s with
    ram := s.ram.setAll (s.cfg.addrBufSetrep.toNat + s.ctlDst.toNat) bytes
    ctlDst := s.ctlDst + BitVec.ofNat 16 bytes.length
    ctlRemaining := s.ctlRemaining - BitVec.ofNat 16 bytes.length
    ctlToggle := if s.bdEp0Out.cnt = 32 then s.ctlToggle ^^^ 1 else s.ctlToggle }

/-- The data stage ended: the sink handles the report, the status IN follows. -/
def writeEnded (s : State) : State := statusIn (setReportSink s.ctlDst { s with ctlDir := .none })

/-- The stage ends on a report the sink leaves alone. -/
theorem writeEnded_ignored {s : State} (hcpu : s.bdEp0In.own = .cpu)
    (hsink : s.cfg.setReportSink = .discard ∨ s.ctlDst.toNat < 5) :
    writeEnded s = armedEp0In 0 1 { s with ctlDir := .none, ctlStatus := .statusIn } := by
  rw [writeEnded, setReportSink_ignored (s := { s with ctlDir := .none }) hsink, statusIn_eq (by exact hcpu)]

/-- The stage ends on a report the sink displays; the display leaves `EP0_IN` the CPU's. -/
theorem writeEnded_display {s : State} {r0 r1 r2 r3 r4 : Byte} (hcpu : s.bdEp0In.own = .cpu)
    (hsink : s.cfg.setReportSink = .display) (hlong : 5 ≤ s.ctlDst.toNat)
    (hbytes : BytesAt s.ram s.cfg.addrBufSetrep.toNat [r0, r1, r2, r3, r4]) :
    writeEnded s = armedEp0In 0 1 { displayValues (0#4 ++ r2.extractLsb' 0 4 ++ r1 ++ r0)
      (0#4 ++ r4 ++ r3 ++ r2.extractLsb' 4 4) { s with ctlDir := .none } with ctlStatus := .statusIn } := by
  rw [writeEnded, setReportSink_display (s := { s with ctlDir := .none }) hsink hlong hbytes,
    statusIn_eq (by simpa using hcpu)]

/-- R195: a packet is full when its count is 32, and a shorter one ends the stage as the last byte does. -/
theorem finishWriteData_eq {s : State} {bytes : List Byte} (hcnt : s.bdEp0Out.cnt.toNat ≤ 32) :
    finishWriteData s.bdEp0Out.cnt.toNat bytes.length
        { s with ram := s.ram.setAll (s.cfg.addrBufSetrep.toNat + s.ctlDst.toNat) bytes } =
      if s.bdEp0Out.cnt ≠ 32 ∨ (packetStored bytes s).ctlRemaining = 0 then writeEnded (packetStored bytes s)
      else packetStored bytes s := by
  by_cases hfull : s.bdEp0Out.cnt = 32#10
  · simp [finishWriteData, writeEnded, packetStored, hfull]
  · have hne : s.bdEp0Out.cnt.toNat ≠ 32 := fun h => hfull (BitVec.eq_of_toNat_eq h)
    have hshort : s.bdEp0Out.cnt.toNat < 32 := by omega
    simp [finishWriteData, writeEnded, packetStored, hfull, hne, hshort]

/-- R195: the packet is stored; a short one or the last byte ends the stage. -/
theorem controlWriteData_eq {s : State} {bytes : List Byte} (hcpu : s.bdEp0Out.own = .cpu)
    (hcnt : s.bdEp0Out.cnt.toNat ≤ 32) (hroom : s.ctlDst.toNat + bytes.length ≤ 32)
    (hlength : bytes.length = min s.bdEp0Out.cnt.toNat s.ctlRemaining.toNat)
    (hbytes : BytesAt s.ram s.cfg.addrEp0Out.toNat bytes) :
    controlWriteData s.bdEp0Out.cnt.toNat s =
      .ok (if s.bdEp0Out.cnt ≠ 32 ∨ (packetStored bytes s).ctlRemaining = 0 then writeEnded (packetStored bytes s)
        else packetStored bytes s) := by
  have hread : memRead s.cfg.addrEp0Out.toNat bytes.length s = .ok (bytes, s) := by
    have hinside := epBuffer_inside s.cfg .ep0Out
    have hown : sieOwnsRange s s.cfg.addrEp0Out.toNat bytes.length = false :=
      sieOwnsRange_endpoint s .ep0Out hcpu le_rfl (by simp [epBuffer]; omega)
    simp only [epBuffer, pEp0Max_eq] at hinside
    rw [memRead, if_pos (by omega), readBytes_of_bytesAt hbytes, afterCoreRead_of_bytesAt hown hbytes]
  have hwrite : memWrite (s.cfg.addrBufSetrep.toNat + s.ctlDst.toNat) bytes s =
      .ok { s with ram := s.ram.setAll (s.cfg.addrBufSetrep.toNat + s.ctlDst.toNat) bytes } := by
    have hinside := config_regions_inside s.cfg (i := 4) rfl
    simp only [pEp0Max_eq] at hinside
    rw [memWrite, if_pos (by omega), coreWrite_cpu (sieOwnsRange_sink s hroom)]
  simp only [controlWriteData, ← hlength, hread, hwrite]
  rw [finishWriteData_eq hcnt]

/-- R197 in a control write. -/
theorem handleEp0Out_write {s t : State} (hdir : s.ctlDir = .h2d) (hcpu : t.bdEp0Out.own = .cpu)
    (ht : controlWriteData s.bdEp0Out.cnt.toNat s = .ok t) :
    handleEp0Out s = .ok (armedEp0Out (expectedOutToggle t) t) := by
  simp only [handleEp0Out, hdir, ↓reduceIte, ht, armEp0Out_eq hcpu]

/-- R197 on the only completion of the queue: after the packet is handled, `EP0_OUT` is armed again. -/
theorem exec_evUsbEp0Out_write {s t : State} (hqueue : s.trnFifo = [(0, .out)]) (hpid : s.bdEp0Out.pid ≠ .setup)
    (hcpu : s.bdEp0Out.own = .cpu) (hdir : s.ctlDir = .h2d)
    (ht : controlWriteData s.bdEp0Out.cnt.toNat { s with trnFifo := [] } = .ok t) :
    exec .evUsbEp0Out s = .next (armedEp0Out (expectedOutToggle t) t) := by
  obtain ⟨hbd, hempty⟩ : t.bdEp0Out = s.bdEp0Out ∧ t.trnFifo = [] := by simp [controlWriteData_frame _ ht]
  have hhead : headIs 0 .out s = true ∧ s.bdEp0Out.pid ≠ .setup := ⟨by simp [headIs, hqueue], hpid⟩
  calc exec .evUsbEp0Out s
    _ = outcome (thenDrain (onEp0Out (readField .ep0Out { s with trnFifo := [] }))) := by
      rw [← popTrn_single hqueue]
      exact if_pos hhead
    _ = outcome (thenDrain (.ok (armedEp0Out (expectedOutToggle t) t))) := by
      rw [readField_cpu (by exact hcpu), onEp0Out, readField_cpu (by exact hcpu),
        handleEp0Out_write (by exact hdir) (by rw [hbd, hcpu]) ht]
    _ = .next (armedEp0Out (expectedOutToggle t) t) := by
      rw [thenDrain_ok (by exact hempty)]
      rfl

/-- Settles O39: the packet stored, then the three ends of R195: more to come, a report the sink ignores, one it
displays. -/
theorem endpointZeroOutData : Obligations.EndpointZeroOutData := by
  intro s bytes hqueue hpid hcpu hin hdir hcnt hroom hlength hbytes
  have hwrite := controlWriteData_eq (s := { s with trnFifo := [] }) hcpu hcnt hroom hlength hbytes
  have hexec := exec_evUsbEp0Out_write hqueue hpid hcpu hdir hwrite
  refine ⟨_, packetStored bytes { s with trnFifo := [] }, storedAt_setAll s _ _, rfl, ?more, ?ignored, ?displayed⟩
  case more =>
    rintro ⟨hfull, hrest⟩
    rw [if_neg (not_or.2 ⟨not_not.2 hfull, hrest⟩), expectedOutToggle_write (by exact hdir)] at hexec
    exact hexec
  case ignored =>
    intro hend hsink
    rw [if_pos hend, writeEnded_ignored (by exact hin) (by exact hsink), expectedOutToggle_statusIn rfl rfl] at hexec
    exact hexec
  case displayed =>
    intro r0 r1 r2 r3 r4 hend hsink hlong hreport
    rw [if_pos hend, writeEnded_display (by exact hin) (by exact hsink) hlong hreport,
      expectedOutToggle_statusIn (by simp [armedEp0In]) rfl] at hexec
    exact ⟨_, exec_callDisplayValues .., hexec⟩

end Sys2Proof.Machine
end

section
/-! PROOFS. The interrupt endpoint, `spec/43_usb_ep1.md` R227 to R230: `Arm` and `Reclaim` of its descriptors as
whole-state updates, the report of the stored values, the two switches, and the completion `EV_USB_EP1_IN`. -/

namespace Sys2Proof.Machine

open Sys2Proof

/-! ### The shared operations, as whole-state updates -/

/-- R253: one model fault. -/
theorem raiseModelFault_eq (c : ModelCause) (s : State) : raiseModelFault c s = modelFaulted c s := rfl

/-- R36: `Arm` of an `EP1_OUT` the CPU owns, at its buffer. -/
theorem arm_ep1Out {s : State} (dts : Toggle) (hcpu : s.bdEp1Out.own = .cpu) :
    arm .ep1Out s.cfg.addrEp1Out (BitVec.ofNat 10 pReportLen) dts s = armedEp1Out dts s :=
  arm_cpu _ _ _ hcpu

/-- R36: `Arm` of an `EP1_IN` the CPU owns, at its buffer. -/
theorem arm_ep1In {s : State} (dts : Toggle) (hcpu : s.bdEp1In.own = .cpu) :
    arm .ep1In s.cfg.addrEp1In (BitVec.ofNat 10 pReportLen) dts s = armedEp1In dts s :=
  arm_cpu _ _ _ hcpu

/-- R36: the guarded `Reclaim`: a descriptor of the SIE is reclaimed and the trace says so. -/
theorem reclaimIfArmed_eq (e : BdId) (s : State) : reclaimIfArmed e s =
    { s.setBd e (if (s.bd e).own = .sie then reclaimed (s.bd e) else s.bd e) with
      trace := s.trace ++ if (s.bd e).own = .sie then [.reclaim e] else [] } := by
  by_cases hown : (s.bd e).own = .sie
  · rw [reclaimIfArmed, if_pos hown, if_pos hown, if_pos hown]
    cases e <;> rfl
  · rw [reclaimIfArmed, if_neg hown, if_neg hown, if_neg hown, List.append_nil]
    cases e <;> rfl

/-! ### `NotifyNewValues`, R227 -/

/-- R88, C1: the report of two stored values, each modulo 2^20, is cut from their low twenty bits. -/
theorem encodeReport_wireValue (v0 v1 : StoredValue) : encodeReport (wireValue v0) (wireValue v1) =
    [v0.extractLsb' 0 8, v0.extractLsb' 8 8, v1.extractLsb' 0 4 ++ v0.extractLsb' 16 4, v1.extractLsb' 4 8,
     v1.extractLsb' 12 8] := by
  simp (disch := decide) only [encodeReport, wireValue, BitVec.extractLsb'_setWidth_of_le]

/-- R227: on an `EP1_IN` the CPU owns, its buffer is the CPU's too, so the report is stored and armed. -/
theorem armReport_eq {s : State} (hcpu : s.bdEp1In.own = .cpu) : armReport s = armedEp1In s.ep1InDts
    { s with ram := s.ram.setAll s.cfg.addrEp1In.toNat (encodeReport (wireValue s.value0) (wireValue s.value1)) } := by
  have hown : sieOwnsRange s s.cfg.addrEp1In.toNat 5 = false := sieOwnsRange_endpoint s .ep1In hcpu le_rfl le_rfl
  rw [armReport, coreWrite_cpu hown]
  exact arm_ep1In _ hcpu

/-- Settles O25: the two guards of R227, then the report. -/
theorem notifyRuns : Obligations.NotifyRuns := by
  intro s
  simp only [exec_callNotifyNewValues, ← encodeReport_wireValue]
  refine ⟨fun hdisabled => ?disabled, fun henabled hsie => ?overrun,
    fun henabled hcpu => ⟨_, storedAt_setAll s _ _, ?armed⟩⟩
  case disabled => rw [notifyNewValues, if_pos hdisabled]
  case overrun => rw [notifyNewValues, if_neg (by simp [henabled]), if_pos hsie, raiseModelFault_eq]
  case armed => rw [notifyNewValues, if_neg (by simp [henabled]), if_neg (by simp [hcpu]), armReport_eq hcpu]

/-! ### The switches, R228 and R229 -/

/-- The state in which `Ep1Enable` initializes the chip (R228). -/
def ep1EnabledState (s : State) : State :=
  { armedEp1Out 0 { s with ep1OutDts := 0, ep1InDts := 0 } with
    ep1Enabled := true
    trace := s.trace ++ [.arm .ep1Out 5 0, .ep1Enable true] }

/-- R228: the toggles cleared, `EP1_OUT` armed, the endpoint enabled, then `Initialize`. -/
theorem ep1Enable_eq {s : State} (hcpu : s.bdEp1Out.own = .cpu) :
    ep1Enable s = initializeChip (ep1EnabledState s) := by
  have harm := arm_ep1Out (s := { s with ep1OutDts := 0, ep1InDts := 0 }) 0 hcpu
  simp only [ep1Enable, harm, emit, armedEp1Out, ep1EnabledState, List.append_assoc, List.cons_append, List.nil_append]

/-- R229: the two reclaims, `EP1_OUT` first. -/
theorem reclaimIfArmed_endpointOne (s : State) : reclaimIfArmed .ep1In (reclaimIfArmed .ep1Out s) = { s with
    bdEp1Out := if s.bdEp1Out.own = .sie then reclaimed s.bdEp1Out else s.bdEp1Out
    bdEp1In := if s.bdEp1In.own = .sie then reclaimed s.bdEp1In else s.bdEp1In
    trace := s.trace ++ (if s.bdEp1Out.own = .sie then [.reclaim .ep1Out] else []) ++
      (if s.bdEp1In.own = .sie then [.reclaim .ep1In] else []) } := by
  rw [reclaimIfArmed_eq, reclaimIfArmed_eq]
  rfl

/-- R229: `Terminate`, which leaves both descriptors as they are, then each reclaimed from the SIE, then the endpoint
disabled. -/
theorem ep1Disable_eq (s : State) : ep1Disable s = { terminate s with
    bdEp1Out := if s.bdEp1Out.own = .sie then reclaimed s.bdEp1Out else s.bdEp1Out
    bdEp1In := if s.bdEp1In.own = .sie then reclaimed s.bdEp1In else s.bdEp1In
    ep1Enabled := false
    trace := (terminate s).trace ++ (if s.bdEp1Out.own = .sie then [.reclaim .ep1Out] else []) ++
      (if s.bdEp1In.own = .sie then [.reclaim .ep1In] else []) ++ [.ep1Enable false] } := by
  have hout : (terminate s).bdEp1Out = s.bdEp1Out := by simp
  have hin : (terminate s).bdEp1In = s.bdEp1In := by simp
  simp only [ep1Disable, reclaimIfArmed_endpointOne, emit, hout, hin]

/-- Settles O24: `Initialize` after the arm, and `Terminate` before the reclaims. -/
theorem endpointOneSwitches : Obligations.EndpointOneSwitches := by
  intro s
  refine ⟨fun hcpu => ⟨_, ?enable, exec_callInitialize _⟩, terminate s, exec_callTerminate s, ?disable⟩
  case enable => rw [exec_callEp1Enable, ep1Enable_eq hcpu, ep1EnabledState]
  case disable => rw [exec_callEp1Disable, ep1Disable_eq]

/-! ### The completion of `EP1_IN`, R230 -/

/-- R230, R231: the toggle of the next report flips unless the completion is stale. -/
theorem onEp1In_eq (s : State) :
    onEp1In s = { s with ep1InDts := if s.ep1Enabled = true then s.ep1InDts ^^^ 1 else s.ep1InDts } := by
  by_cases henabled : s.ep1Enabled = true
  · rw [if_pos henabled, onEp1In, if_neg (by simp [henabled])]
  · rw [if_neg henabled, onEp1In, if_pos (by simpa using henabled)]

/-- Settles O27: the completion is the queue's only one, so after `OnEp1In` nothing is left to drain. -/
theorem endpointOneIn : Obligations.EndpointOneIn := by
  intro s hqueue
  have hhead : headIs 1 .inn s = true := by simp [headIs, hqueue]
  calc exec .evUsbEp1In s
    _ = outcome (thenDrain (.ok (onEp1In { s with trnFifo := [] }))) := by
      rw [← popTrn_single hqueue]
      exact if_pos hhead
    _ = .next (onEp1In { s with trnFifo := [] }) := by
      rw [thenDrain_ok (by simp)]
      rfl
    _ = _ := by rw [onEp1In_eq]

end Sys2Proof.Machine
end

section
/-! PROOFS. The key interrupt of `spec/60_exceptions.md` R265 and `ServiceInterrupt` of `spec/41_display_keyscan.md`
R152: one request on the key buffer, with the flag cleared first or without it. -/

namespace Sys2Proof.Machine

open Sys2Proof

/-! ### The instructions, as the operations they run -/

/-- R152, as a call. -/
theorem exec_callServiceInterrupt (s : State) : exec .callServiceInterrupt s = .next (serviceInterrupt s) := rfl

/-- R265, R256: the enabled key interrupt clears its flag and runs `ServiceInterrupt`. -/
theorem exec_evKeyIrq_enabled {s : State} (hflag : s.keyIf = true) (henable : s.keyIe = true) :
    exec .evKeyIrq s = .next (serviceInterrupt { s with keyIf := false }) := if_pos ⟨hflag, henable⟩

/-! ### The request of the key read -/

/-- The first byte `ServiceInterrupt` sends (R144). -/
theorem keyBytes_head? (c : Config) : (keyBytes c).head? = some (1#1 ++ c.regKeyDebounced) := by
  rw [keyBytes_eq, List.head?_cons]

/-- R152 on an engine that accepts the request, and on one that does not: the key buffer is the fourth of the driver's
regions, so its bytes are stored either way. -/
theorem serviceInterrupt_eq (s : State) :
    (engineReady s → serviceInterrupt s = exchangeStarted s.cfg.addrBufKey 2 .keyReadDone (1#1 ++ s.cfg.regKeyDebounced)
      { s with ram := s.ram.setAll s.cfg.addrBufKey.toNat (keyBytes s.cfg) }) ∧
    (¬engineReady s → serviceInterrupt s = signalled (slotFailures s)
      { s with ram := s.ram.setAll s.cfg.addrBufKey.toNat (keyBytes s.cfg) }) :=
  driver_request (i := 3) (len := 2) .keyReadDone rfl (by decide) (keyBytes_head? s.cfg) (by decide) (by decide)

/-- Settles O21: `ServiceInterrupt` from the state itself, and from the state with the key flag cleared, which the
engine and the memory do not see. -/
theorem keyInterruptRuns : Obligations.KeyInterruptRuns := by
  intro s
  have ⟨hready, hlost⟩ := serviceInterrupt_eq s
  have ⟨hreadyIrq, hlostIrq⟩ := serviceInterrupt_eq { s with keyIf := false }
  rw [← keyBytes_eq, exec_callServiceInterrupt]
  refine ⟨_, storedAt_setAll s _ _, fun h => ⟨congrArg _ (hready h), fun hflag henable => ?started⟩,
    fun h => ⟨congrArg _ (hlost h), fun hflag henable => ?lost⟩⟩
  case started => rw [exec_evKeyIrq_enabled hflag henable, hreadyIrq h]
  case lost => exact (exec_evKeyIrq_enabled hflag henable).trans (congrArg _ (hlostIrq h))

end Sys2Proof.Machine
end

section
/-! PROOFS. The fault signals as instructions, `spec/60_exceptions.md` R250, R253, and the event words refused by name,
R254: which instructions `exec` refuses, which words decode to them, and that the dispatcher's choice is none of
them. -/

namespace Sys2Proof.Machine

open Sys2Proof

/-! ### `Fatal` and `ModelFault`, R250 and R253 -/

/-- R250, as a call. -/
theorem exec_callFatal (c : FatalCause) (s : State) : exec (.callFatal c) s = .next (raiseFatal c s) := rfl

/-- R253, as a call. -/
theorem exec_callModelFault (c : ModelCause) (s : State) :
    exec (.callModelFault c) s = .next (raiseModelFault c s) := rfl

/-- Settles O41: the two shared operations as whole-state updates. The signal of one cause is set whatever it was. -/
theorem faultSignals : Obligations.FaultSignals := by
  intro s
  refine ⟨fun c => ?fatal, fun c => ?model⟩
  case fatal => simp [exec_callFatal, raiseFatal_eq, signalled]
  case model => rw [exec_callModelFault, raiseModelFault_eq, modelFaulted]

/-! ### The instructions refused by name, R254 -/

/-- The two rows of the opcode table that R254 refuses. -/
def refusedRow : Instr → Bool
  | .evUsbBadKind _ _ _ | .evRefused _ _ _ _ => true
  | _ => false

/-- A rule that may be stuck is never a refusal. -/
theorem outcome_ne_refused (r : Except Fault State) (x : Refusal) : outcome r ≠ .refused x := by
  cases r <;> exact nofun

/-- An event word whose entry point is not enabled leaves the state as it is (log 7), so it is no refusal if what the
entry point runs is none. -/
theorem guarded_ne_refused {g : Prop} [Decidable g] {r : Host.Outcome State Fault Refusal} {s : State} {x : Refusal}
    (h : r ≠ .refused x) : (if g then r else .next s) ≠ .refused x := by
  split
  · exact h
  · exact nofun

/-- Every instruction outside the two rows has a meaning: an event word runs its guarded entry point, a descriptor
request and a USB completion may be stuck, and every other rule ends in a state. -/
theorem exec_ne_refused {i : Instr} (h : refusedRow i = false) (s : State) (x : Refusal) : exec i s ≠ .refused x := by
  cases i
  case evUsbBadKind | evRefused => exact absurd h Bool.noConfusion
  case evSpiByteComplete | evKeyIrq | evUsbBusReset | evUsbBusOther | evTimerTick => exact guarded_ne_refused nofun
  case evUsbEp0Setup | evUsbEp0Out | evUsbEp0In | evUsbEp1Out | evUsbEp1In | evUsbUnknownEp =>
    exact guarded_ne_refused (outcome_ne_refused _ x)
  case getDescriptorDevice | getDescriptorConfiguration | getDescriptorString | getDescriptorReport =>
    exact outcome_ne_refused _ x
  all_goals exact nofun

/-- R254: the two rows are refused by name. -/
theorem exec_refusedRow {i : Instr} (h : refusedRow i = true) (s : State) : exec i s = .refused .refusedEvent := by
  unfold refusedRow at h
  split at h
  · rfl
  · rfl
  · exact absurd h Bool.false_ne_true

/-- R254: `REFUSED_EVENT` is the outcome of the two rows and of no other instruction. -/
theorem exec_eq_refusedEvent_iff (i : Instr) (s : State) :
    exec i s = .refused .refusedEvent ↔ refusedRow i = true := by
  refine ⟨fun h => ?_, fun h => exec_refusedRow h s⟩
  by_contra hrow
  exact exec_ne_refused (Bool.not_eq_true _ ▸ hrow) s _ h

/-! ### The words of the two rows, R97 -/

/-- The words the decoder reads exactly (R97): every event word that is not refused but those of an unknown endpoint. -/
def entryWords : List (BitVec 12) :=
  [0x000#12, 0x200#12, 0x40D#12, 0x401#12, 0x419#12, 0x421#12, 0x439#12, 0x600#12, 0x601#12, 0x800#12]

/-- The exact words decode to rows that are not refused. -/
theorem refusedRow_entryWords : ∀ w ∈ entryWords, refusedRow (decodeEvt w) = false := by
  simp only [entryWords, List.forall_mem_cons]
  exact ⟨rfl, rfl, rfl, rfl, rfl, rfl, rfl, rfl, rfl, rfl, List.forall_mem_nil _⟩

/-- Past the exact words the fields `src` and `ep` decide the row. -/
theorem decodeEvt_of_notMem {w : BitVec 12} (h : w ∉ entryWords) : decodeEvt w =
    if w.extractLsb' 9 3 = 2 ∧ w.extractLsb' 5 4 = 0 then .evUsbBadKind 0 (w.extractLsb' 4 1) (w.extractLsb' 0 4)
    else if w.extractLsb' 9 3 = 2 ∧ w.extractLsb' 5 4 = 1 then
      .evUsbBadKind 1 (w.extractLsb' 4 1) (w.extractLsb' 0 4)
    else if w.extractLsb' 9 3 = 2 then
      .evUsbUnknownEp (w.extractLsb' 5 4) (w.extractLsb' 4 1) (w.extractLsb' 0 4)
    else .evRefused (w.extractLsb' 9 3) (w.extractLsb' 5 4) (w.extractLsb' 4 1) (w.extractLsb' 0 4) := by
  simp only [entryWords, List.mem_cons, List.not_mem_nil, or_false, not_or] at h
  simp only [decodeEvt, h, ↓reduceIte]

/-- The decoder comes to the two rows exactly past the ten words and the unknown endpoints. -/
theorem refusedRow_decodeEvt (w : BitVec 12) : refusedRow (decodeEvt w) = true ↔
    w ∉ entryWords ∧ ¬(w.extractLsb' 9 3 = 2 ∧ w.extractLsb' 5 4 ≠ 0 ∧ w.extractLsb' 5 4 ≠ 1) := by
  by_cases hw : w ∈ entryWords
  · simp only [refusedRow_entryWords w hw, hw, Bool.false_eq_true, not_true_eq_false, false_and]
  · simp only [decodeEvt_of_notMem hw, hw, not_false_eq_true, true_and]
    clear hw
    split_ifs with hep0 hep1 hsrc <;> simp_all [refusedRow]

/-- R81: an event word has these fields. -/
theorem evtWord_fields (src : BitVec 3) (ep : BitVec 4) (dir : BitVec 1) (kind : BitVec 4) :
    (evtWord src ep dir kind).extractLsb' 9 3 = src ∧ (evtWord src ep dir kind).extractLsb' 5 4 = ep ∧
    (evtWord src ep dir kind).extractLsb' 4 1 = dir ∧ (evtWord src ep dir kind).extractLsb' 0 4 = kind := by
  have hrest {start len : Nat} (h : 4 ≤ start) : (evtWord src ep dir kind).extractLsb' start len =
      (src ++ ep ++ dir).extractLsb' (start - 4) len :=
    BitVec.extractLsb'_append_eq_of_le (xhi := src ++ ep ++ dir) (xlo := kind) h
  have hhigh {start len : Nat} (h : 1 ≤ start) : (src ++ ep ++ dir).extractLsb' start len =
      (src ++ ep).extractLsb' (start - 1) len :=
    BitVec.extractLsb'_append_eq_of_le (xhi := src ++ ep) (xlo := dir) h
  refine ⟨?src, ?ep, ?dir, ?kind⟩
  case src => exact (hrest (by decide)).trans ((hhigh (by decide)).trans BitVec.extractLsb'_append_eq_left)
  case ep => exact (hrest (by decide)).trans ((hhigh (by decide)).trans BitVec.extractLsb'_append_eq_right)
  case dir => exact (hrest (by decide)).trans BitVec.extractLsb'_append_eq_right
  case kind => exact BitVec.extractLsb'_append_eq_right (a := src ++ ep ++ dir) (b := kind)

/-- R81: an event word is determined by its fields. -/
theorem evtWord_inj {src src' : BitVec 3} {ep ep' : BitVec 4} {dir dir' : BitVec 1} {kind kind' : BitVec 4} :
    evtWord src ep dir kind = evtWord src' ep' dir' kind' ↔ src = src' ∧ ep = ep' ∧ dir = dir' ∧ kind = kind' := by
  constructor
  · intro h
    obtain ⟨hsrc, hep, hdir, hkind⟩ := evtWord_fields src ep dir kind
    obtain ⟨hsrc', hep', hdir', hkind'⟩ := evtWord_fields src' ep' dir' kind'
    rw [h] at hsrc hep hdir hkind
    exact ⟨hsrc.symm.trans hsrc', hep.symm.trans hep', hdir.symm.trans hdir', hkind.symm.trans hkind'⟩
  · rintro ⟨rfl, rfl, rfl, rfl⟩
    rfl

/-- The ten words by their fields. -/
theorem entryWords_eq : entryWords =
    [evtWord 0 0 0 0, evtWord 1 0 0 0, evtWord 2 0 0 kindSetup, evtWord 2 0 0 kindOut, evtWord 2 0 1 kindIn,
     evtWord 2 1 0 kindOut, evtWord 2 1 1 kindIn, evtWord 3 0 0 0, evtWord 3 0 0 1, evtWord 4 0 0 0] := rfl

/-- R81, R97: the reserved event words, by source: no such source, an unknown bus event, a field that must be 0, a
transaction Endpoint 0 or 1 cannot produce. -/
def ReservedEvent (src : BitVec 3) (ep : BitVec 4) (dir : BitVec 1) (kind : BitVec 4) : Prop :=
  5 ≤ src.toNat ∨ (src = 3 ∧ 2 ≤ kind.toNat) ∨ (src ≠ 2 ∧ (ep ≠ 0 ∨ dir ≠ 0)) ∨
  ((src = 0 ∨ src = 1 ∨ src = 4) ∧ kind ≠ 0) ∨
  (src = 2 ∧ ep = 0 ∧ ¬((dir = 0 ∧ (kind = 0b0001 ∨ kind = 0b1101)) ∨ (dir = 1 ∧ kind = 0b1001))) ∨
  (src = 2 ∧ ep = 1 ∧ ¬((dir = 0 ∧ kind = 0b0001) ∨ (dir = 1 ∧ kind = 0b1001)))

/-- R81: the sources are 0 to 4. -/
theorem eventSource_cases (src : BitVec 3) :
    src = 0 ∨ src = 1 ∨ src = 2 ∨ src = 3 ∨ src = 4 ∨ 5 ≤ src.toNat := by
  revert src; decide

/-- R81: the kinds of a bus event are 0 and 1. -/
theorem busKind_reserved (kind : BitVec 4) : 2 ≤ kind.toNat ↔ kind ≠ 0 ∧ kind ≠ 1 := by
  revert kind; decide

/-- The words that fall through to the two rows are the reserved ones. -/
theorem refusedRow_evtWord (src : BitVec 3) (ep : BitVec 4) (dir : BitVec 1) (kind : BitVec 4) :
    refusedRow (decodeEvt (evtWord src ep dir kind)) = true ↔ ReservedEvent src ep dir kind := by
  obtain ⟨hsrc, hep, -, -⟩ := evtWord_fields src ep dir kind
  rw [refusedRow_decodeEvt, hsrc, hep, entryWords_eq, ReservedEvent, busKind_reserved]
  simp only [List.mem_cons, List.not_mem_nil, or_false, evtWord_inj, kindOut, kindIn, kindSetup]
  obtain rfl | rfl | rfl | rfl | rfl | hreserved := eventSource_cases src
  case inr.inr.inl =>
    by_cases hep0 : ep = 0#4
    · simp [hep0]; tauto
    by_cases hep1 : ep = 1#4
    · simp [hep1]
    · simp [hep0, hep1]
  case inr.inr.inr.inr.inr =>
    have hne (k : BitVec 3) (hk : k.toNat < 5) : src ≠ k := by rintro rfl; omega
    simp [hreserved, hne]
  all_goals simp; tauto

/-! ### The dispatcher's choice, R254 and R256 -/

/-- R259, R260: the event word of the oldest completion is not refused. -/
theorem refusedRow_usbEvent {s : State} {i : Instr} (h : usbEvent s = some i) : refusedRow i = false := by
  rcases hqueue : s.trnFifo with _ | ⟨⟨ep, d⟩, rest⟩ <;> simp only [usbEvent, hqueue, reduceCtorEq] at h
  split at h
  case isTrue =>
    cases d <;> obtain rfl := Option.some.inj h
    · split <;> rfl
    · rfl
  case isFalse =>
    split at h
    · cases d <;> obtain rfl := Option.some.inj h <;> rfl
    · obtain rfl := Option.some.inj h
      rfl

/-- R256: nor is the event word of any entry point. -/
theorem refusedRow_eventOf {s : State} {ep : EntryPoint} {i : Instr} (h : eventOf s ep = some i) :
    refusedRow i = false := by
  cases ep with
  | usbTransaction => exact refusedRow_usbEvent h
  | usbBusEvent =>
    obtain rfl := Option.some.inj h
    split <;> rfl
  | spiByteComplete | keyIrq | timerTick =>
    obtain rfl := Option.some.inj h
    rfl

/-- R254: what the dispatcher runs is the event word of an entry point. -/
theorem refusedRow_nextEvent {s : State} {i : Instr} (h : nextEvent s = some i) : refusedRow i = false := by
  unfold nextEvent at h
  split at h
  · exact refusedRow_eventOf h
  · exact absurd h nofun

/-- Settles O42: the two rows, the words that decode to them, and the dispatcher's choice, which is neither. -/
theorem refusedEventWords : Obligations.RefusedEventWords := by
  intro s
  refine ⟨fun _ _ _ => exec_refusedRow rfl s, fun _ _ _ _ => exec_refusedRow rfl s, fun src ep dir kind => ?words,
    fun i h => exec_ne_refused (refusedRow_nextEvent h) s _⟩
  case words => exact (exec_eq_refusedEvent_iff _ s).trans (refusedRow_evtWord src ep dir kind)

end Sys2Proof.Machine
end

section
/-! PROOFS. The bus reset of `spec/70_reset_and_hazards.md` R292, run by the entry point of
`spec/60_exceptions.md` R263: the device deconfigured, `EP0_OUT` armed afresh, and the flag of another
bus event cleared after it. -/

namespace Sys2Proof.Machine

open Sys2Proof

/-! ### The parts of `BusReset`, R292 -/

/-- The first part of `BusReset` (R292): the queue emptied, then a configured device deconfigured with Endpoint 1
disabled. -/
def deconfigured (s : State) : State :=
  let q := { s with trnFifo := [] }
  if q.configured = true then { ep1Disable q with configured := false } else q

/-- R229, R292: where the device was configured, `Ep1Disable` runs with the queue already empty. -/
theorem deconfigured_of_configured {s : State} (h : s.configured = true) :
    deconfigured s = { ep1Disable { s with trnFifo := [] } with configured := false } := if_pos h

/-- Where it was not, only the queue changes. -/
theorem deconfigured_of_unconfigured {s : State} (h : s.configured = false) :
    deconfigured s = { s with trnFifo := [] } := if_neg (by simp [h])

/-- The toggle of the next OUT with no transfer in progress (R198). -/
theorem expectedOutToggle_transferCancelled (s : State) : expectedOutToggle (transferCancelled s) = 0 := by
  simp [expectedOutToggle, transferCancelled]

/-- R36: after the guarded `Reclaim` the descriptor is the CPU's, whoever owned it. -/
theorem reclaimIfArmed_own (e : BdId) (s : State) : ((reclaimIfArmed e s).bd e).own = .cpu := by
  rw [reclaimIfArmed_bd]
  cases hown : (s.bd e).own <;> simp [hown]

/-- `EP0_OUT` reclaimed and armed: the `Arm` writes every field the `Reclaim` wrote, so of that only the trace entry
is left. -/
theorem armEp0Out_reclaimIfArmed (s : State) : armEp0Out (reclaimIfArmed .ep0Out s) =
    armedEp0Out (expectedOutToggle s)
      { s with trace := s.trace ++ if s.bdEp0Out.own = .sie then [.reclaim .ep0Out] else [] } := by
  have htoggle : expectedOutToggle (reclaimIfArmed .ep0Out s) = expectedOutToggle s := by simp [expectedOutToggle]
  rw [armEp0Out_eq (reclaimIfArmed_own .ep0Out s), htoggle, reclaimIfArmed_eq]
  by_cases hown : s.bdEp0Out.own = .sie <;> simp [armedEp0Out, State.setBd, State.bd, hown, reclaimed]

/-- R292: the address set to 0, the transfer cancelled, and `EP0_OUT` armed with toggle 0, each from the state the step
before it leaves. -/
theorem busReset_eq (s : State) : busReset s =
    let r := transferCancelled { deconfigured s with usbAddr := 0, trace := (deconfigured s).trace ++ [.addr 0] }
    armedEp0Out 0 { r with trace := r.trace ++ if r.bdEp0Out.own = .sie then [.reclaim .ep0Out] else [] } := by
  calc busReset s
    _ = armEp0Out (reclaimIfArmed .ep0Out (cancelTransfer (emit (.addr 0) { deconfigured s with usbAddr := 0 }))) := rfl
    _ = _ := by
      rw [cancelTransfer_eq, armEp0Out_reclaimIfArmed, expectedOutToggle_transferCancelled]
      rfl

/-! ### The entry point, R263 -/

/-- A guarded clear leaves the flag clear: where it was clear already, clearing it changes nothing. -/
theorem clearBusOther_eq (s : State) :
    (if s.busOtherIf = true then { s with busOtherIf := false } else s) = { s with busOtherIf := false } := by
  cases hother : s.busOtherIf with
  | true => rw [if_pos rfl]
  | false => rw [if_neg Bool.false_ne_true, ← hother]

/-- R263: the reset's flag is cleared before it, the other bus event's after it. -/
theorem usbBusEvent_of_busResetIf {s : State} (h : s.busResetIf = true) :
    usbBusEvent s = { busReset { s with busResetIf := false } with busOtherIf := false } := by
  rw [usbBusEvent, if_pos h]
  exact clearBusOther_eq _

/-- Settles O44: the deconfigured state is the one the statement names `t`, and the rest of R292 runs from it. -/
theorem busResetRuns : Obligations.BusResetRuns := by
  intro s hreset
  refine ⟨deconfigured { s with busResetIf := false },
    fun hconf => ⟨_, exec_callEp1Disable _, deconfigured_of_configured hconf⟩,
    fun hconf => deconfigured_of_unconfigured hconf, ?_⟩
  calc exec .evUsbBusReset s
    _ = .next (usbBusEvent s) := if_pos hreset
    _ = .next { busReset { s with busResetIf := false } with busOtherIf := false } := by
      rw [usbBusEvent_of_busResetIf hreset]
    _ = _ := by rw [busReset_eq]

end Sys2Proof.Machine
end

section
/-! PROOFS. What a step can do, said once: the schedule's entry consumed, then a step of an agent, a refusal, or an
instruction; and every instruction as the operation it runs. The invariants of the block are proved over these cases. -/

namespace Sys2Proof.Machine

open Sys2Proof

/-! ### The USB event words, R259 -/

/-- An entry point's handler leaves the queue as it finds it, so what is left to drain is the rest of the queue. -/
theorem drain_cons (e : BitVec 4 × Dir) (rest : List (BitVec 4 × Dir)) (s : State) :
    drain (e :: rest) s = thenDrain (route e.1 e.2 { s with trnFifo := rest }) := by
  rw [drain]
  cases h : route e.1 e.2 { s with trnFifo := rest } with
  | error f => rfl
  | ok t =>
    have hqueue : t.trnFifo = rest := by simp [route_frame _ _ h]
    simp only [thenDrain, usbTransaction, hqueue]

/-- R259: the entry point takes the oldest completion and then the rest. -/
theorem usbTransaction_cons {s : State} {e : BitVec 4 × Dir} {rest : List (BitVec 4 × Dir)}
    (h : s.trnFifo = e :: rest) : usbTransaction s = thenDrain (route e.1 e.2 (popTrn s)) := by
  rw [usbTransaction, h, drain_cons, popTrn, h, List.tail_cons]

/-- The oldest completion is this one: the queue has a rest. -/
theorem headIs_iff (ep : BitVec 4) (d : Dir) (s : State) :
    headIs ep d s = true ↔ ∃ rest, s.trnFifo = (ep, d) :: rest := by
  rw [headIs, beq_iff_eq, List.head?_eq_some_iff]

/-- A USB event word whose condition holds (R256, R260): the queue's head is the completion it names, and of an `EP0_OUT`
completion the token is. -/
def usbEventEnabled (s : State) : Instr → Prop
  | .evUsbEp0Setup => headIs 0 .out s = true ∧ s.bdEp0Out.pid = .setup
  | .evUsbEp0Out => headIs 0 .out s = true ∧ s.bdEp0Out.pid ≠ .setup
  | .evUsbEp0In => headIs 0 .inn s = true
  | .evUsbEp1Out => headIs 1 .out s = true
  | .evUsbEp1In => headIs 1 .inn s = true
  | .evUsbUnknownEp ep dir _ => headIs ep (dirOf dir) s = true
  | _ => False

/-- R259: every enabled USB event word runs the one entry point. -/
theorem exec_usbEvent {i : Instr} {s : State} (h : usbEventEnabled s i) : exec i s = outcome (usbTransaction s) := by
  cases i
  case evUsbEp0Setup =>
    obtain ⟨hhead, hpid⟩ := h
    obtain ⟨rest, hqueue⟩ := (headIs_iff _ _ _).1 hhead
    have hroute : route 0 .out (popTrn s) = onSetup (readField .ep0Out (popTrn s)) := if_pos hpid
    rw [usbTransaction_cons hqueue, hroute]
    exact if_pos ⟨hhead, hpid⟩
  case evUsbEp0Out =>
    obtain ⟨hhead, hpid⟩ := h
    obtain ⟨rest, hqueue⟩ := (headIs_iff _ _ _).1 hhead
    have hroute : route 0 .out (popTrn s) = onEp0Out (readField .ep0Out (popTrn s)) := if_neg hpid
    rw [usbTransaction_cons hqueue, hroute]
    exact if_pos ⟨hhead, hpid⟩
  case evUsbEp0In | evUsbEp1Out | evUsbEp1In =>
    obtain ⟨rest, hqueue⟩ := (headIs_iff _ _ _).1 h
    rw [usbTransaction_cons hqueue]
    exact if_pos h
  case evUsbUnknownEp => exact if_pos h
  all_goals exact h.elim

/-- The event words of the one USB entry point. -/
def isUsbEvent : Instr → Bool
  | .evUsbEp0Setup | .evUsbEp0Out | .evUsbEp0In | .evUsbEp1Out | .evUsbEp1In | .evUsbUnknownEp _ _ _ => true
  | _ => false

/-- A USB event word whose condition does not hold (log 7). -/
theorem exec_usbEvent_disabled {i : Instr} {s : State} (hi : isUsbEvent i = true) (h : ¬usbEventEnabled s i) :
    exec i s = .next s := by
  cases i
  case evUsbEp0Setup | evUsbEp0Out | evUsbEp0In | evUsbEp1Out | evUsbEp1In | evUsbUnknownEp => exact if_neg h
  all_goals exact absurd hi Bool.false_ne_true

/-! ### The setup rows as a dispatch, R173 -/

/-- The selector and the index of a `wValue` made of the two (R93). -/
theorem selector_index (ty lo : Byte) :
    (ty ++ lo : Word16).extractLsb' 8 8 = ty ∧ (ty ++ lo : Word16).extractLsb' 0 8 = lo :=
  ⟨BitVec.extractLsb'_append_eq_left, BitVec.extractLsb'_append_eq_right⟩

/-- GetDescriptor of the device by its selector, the rows of R90 in their order. -/
theorem decodeSetup_getDescriptorOnDevice (ty lo : Byte) (idx len : Word16) :
    decodeSetup ⟨0x80, 0x06, ty ++ lo, idx, len⟩ =
      if ty = 0x01 then .getDescriptorDevice lo idx len
      else if ty = 0x02 then .getDescriptorConfiguration lo idx len
      else if ty = 0x03 then .getDescriptorString lo idx len
      else if ty = 0x06 then .getDescriptorDeviceQualifier lo idx len
      else .getDescriptorOtherDevice ty lo idx len := by
  obtain ⟨hty, hlo⟩ := selector_index ty lo
  simp only [decodeSetup, SetupPacket.valueHi, SetupPacket.valueLo, hty, hlo, true_and, and_self, ↓reduceIte]

/-- GetDescriptor of the interface by its selector. -/
theorem decodeSetup_getDescriptorOnInterface (ty lo : Byte) (idx len : Word16) :
    decodeSetup ⟨0x81, 0x06, ty ++ lo, idx, len⟩ =
      if ty = 0x22 then .getDescriptorReport lo idx len else .getDescriptorOtherInterface ty lo idx len := by
  obtain ⟨hty, hlo⟩ := selector_index ty lo
  simp only [decodeSetup, SetupPacket.valueHi, SetupPacket.valueLo, hty, hlo, BitVec.reduceEq, false_and, true_and,
    and_self, ↓reduceIte]

/-- The packet whose dispatch is the instruction's own rule: the words of its row; for the two rows of other descriptors
and for the row of the rest, words that no other row takes. -/
def requestPacket : Instr → Option SetupPacket
  | .getDescriptorDevice lo idx len => some ⟨0x80, 0x06, 0x01#8 ++ lo, idx, len⟩
  | .getDescriptorConfiguration lo idx len => some ⟨0x80, 0x06, 0x02#8 ++ lo, idx, len⟩
  | .getDescriptorString lo idx len => some ⟨0x80, 0x06, 0x03#8 ++ lo, idx, len⟩
  | .getDescriptorDeviceQualifier lo idx len => some ⟨0x80, 0x06, 0x06#8 ++ lo, idx, len⟩
  | .getDescriptorOtherDevice _ lo idx len => some ⟨0x80, 0x06, 0x07#8 ++ lo, idx, len⟩
  | .getDescriptorReport lo idx len => some ⟨0x81, 0x06, 0x22#8 ++ lo, idx, len⟩
  | .getDescriptorOtherInterface _ lo idx len => some ⟨0x81, 0x06, 0x21#8 ++ lo, idx, len⟩
  | .setAddress v idx len => some ⟨0x00, 0x05, v, idx, len⟩
  | .setConfiguration v idx len => some ⟨0x00, 0x09, v, idx, len⟩
  | .setInterface v idx len => some ⟨0x01, 0x0B, v, idx, len⟩
  | .hidSetReport v idx len => some ⟨0x21, 0x09, v, idx, len⟩
  | .hidSetIdle v idx len => some ⟨0x21, 0x0A, v, idx, len⟩
  | .hidGetReport v idx len => some ⟨0xA1, 0x01, v, idx, len⟩
  | .unrecognized _ _ v idx len => some ⟨0x02, 0x00, v, idx, len⟩
  | _ => none

/-- Every setup row is the dispatch of its packet. -/
theorem exec_requestPacket {i : Instr} {p : SetupPacket} (h : requestPacket i = some p) (s : State) :
    exec i s = outcome (dispatchSetup p s) := by
  cases i
  case getDescriptorDevice | getDescriptorConfiguration | getDescriptorString | getDescriptorDeviceQualifier |
      getDescriptorOtherDevice =>
    obtain rfl := Option.some.inj h
    rw [← exec_decodeSetup, decodeSetup_getDescriptorOnDevice]
    rfl
  case getDescriptorReport | getDescriptorOtherInterface =>
    obtain rfl := Option.some.inj h
    rw [← exec_decodeSetup, decodeSetup_getDescriptorOnInterface]
    rfl
  case setAddress | setConfiguration | setInterface | hidSetReport | hidSetIdle | hidGetReport | unrecognized =>
    obtain rfl := Option.some.inj h
    rw [← exec_decodeSetup]
    rfl
  all_goals exact absurd h nofun

/-! ### Every instruction as the operation it runs -/

/-- What running an instruction outside the refused rows can be: the rule it runs, or the state as it is. The `CALL` of
`Ep1Enable`, of `Ep1Disable` and of `DisplayValues` on any value come with their instruction; every other display has
values of the wire. -/
inductive Runs (i : Instr) (s : State) : Except Fault State → Prop
  | idle : Runs i s (.ok s)
  | byteComplete (h : s.spiIf = true) : Runs i s (.ok (spiByteComplete s))
  | keyIrq : Runs i s (.ok (keyIrq s))
  | usb {r : Except Fault State} (h : usbTransaction s = r) : Runs i s r
  | bus : Runs i s (.ok (usbBusEvent s))
  | tick : Runs i s (.ok (timerTick s))
  | exchange (buf : Word16) (len : Byte) (cb : Callback) : Runs i s (.ok (startExchange buf len cb s))
  | callback (cb : Callback) : Runs i s (.ok (invokeCallback cb s))
  | chipInit : Runs i s (.ok (initializeChip s))
  | terminate : Runs i s (.ok (terminate s))
  | service : Runs i s (.ok (serviceInterrupt s))
  | notify : Runs i s (.ok (notifyNewValues s))
  | display {v0 v1 : StoredValue} (h : i = .callDisplayValues v0 v1 ∨ (v0.toNat < 2 ^ 20 ∧ v1.toNat < 2 ^ 20)) :
      Runs i s (.ok (displayValues v0 v1 s))
  | enable (h : i = .callEp1Enable) : Runs i s (.ok (ep1Enable s))
  | disable (h : i = .callEp1Disable) : Runs i s (.ok (ep1Disable s))
  | signal (c : Cause) : Runs i s (.ok (raise c s))
  | frame {k : Nat} {buf : Word16} {n j : Nat} (w : BitVec 16) (hk : k < 5)
      (hregion : s.cfg.regions[k]? = some (buf.toNat, n)) (hj : 2 * j + 2 ≤ n) : Runs i s (.ok (sendFrame buf j w s))
  | request (p : SetupPacket) {r : Except Fault State} (h : dispatchSetup p s = r) : Runs i s r
  | report (v0 v1 : WireValue) : Runs i s (.ok (coreWrite s.cfg.addrEp1In.toNat (encodeReport v0 v1) s))

/-- A wire value, zero-extended, fits the wire. -/
theorem wireValue_fits (v : WireValue) : (v.setWidth pStoreBits).toNat < 2 ^ 20 := by
  rw [BitVec.toNat_setWidth]
  exact lt_of_le_of_lt (Nat.mod_le _ _) (wireValue_lt v)

/-- An entry point's guard (R256, log 7): what it runs, or the state as it is. -/
theorem runs_guarded {g : Prop} [Decidable g] {i : Instr} {s t : State} (h : g → Runs i s (.ok t)) :
    ∃ r, (if g then Host.Outcome.next t else .next s : Host.Outcome State Fault Refusal) = outcome r ∧ Runs i s r := by
  by_cases hg : g
  · exact ⟨_, if_pos hg, h hg⟩
  · exact ⟨_, if_neg hg, .idle⟩

/-- A digit's frame lies inside the display buffer. -/
theorem digitFrame_inside (d : DisplayId) (i : DigitId) : 2 * (pDigits * d.val + i.val) + 2 ≤ 24 := by
  have := displayId_lt d
  have := digitId_lt i
  simp only [pDigits]
  omega

/-- Every instruction outside the refused rows runs one of the rules. -/
theorem exec_runs {i : Instr} (h : refusedRow i = false) (s : State) : ∃ r, exec i s = outcome r ∧ Runs i s r := by
  cases hp : requestPacket i with
  | some p => exact ⟨_, exec_requestPacket hp s, .request p rfl⟩
  | none =>
    cases hu : isUsbEvent i with
    | true =>
      by_cases hen : usbEventEnabled s i
      · exact ⟨_, exec_usbEvent hen, .usb rfl⟩
      · exact ⟨.ok s, exec_usbEvent_disabled hu hen, .idle⟩
    | false =>
      cases i
      case evUsbBadKind | evRefused => exact absurd h nofun
      case evSpiByteComplete => exact runs_guarded .byteComplete
      case evKeyIrq => exact runs_guarded fun _ => .keyIrq
      case evUsbBusReset | evUsbBusOther => exact runs_guarded fun _ => .bus
      case evTimerTick => exact runs_guarded fun _ => .tick
      case callStartExchange buf len cb => exact ⟨_, rfl, .exchange buf len cb⟩
      case callInvokeCallback cb => exact ⟨_, rfl, .callback cb⟩
      case callInitialize => exact ⟨_, rfl, .chipInit⟩
      case callInitDone => exact ⟨_, rfl, .callback .initDone⟩
      case callTerminate => exact ⟨_, rfl, .terminate⟩
      case callDisplayValues => exact ⟨_, rfl, .display (.inl rfl)⟩
      case callServiceInterrupt => exact ⟨_, rfl, .service⟩
      case callKeyReadDone => exact ⟨_, rfl, .callback .keyReadDone⟩
      case callEp1Enable => exact ⟨_, rfl, .enable rfl⟩
      case callEp1Disable => exact ⟨_, rfl, .disable rfl⟩
      case callNotifyNewValues => exact ⟨_, rfl, .notify⟩
      case callFatal c => exact ⟨_, rfl, .signal (.fatal c)⟩
      case callModelFault c => exact ⟨_, rfl, .signal (.model c)⟩
      case wrScanLimit | wrIntensity | wrDecode | wrConfigNormal | wrPortConfig =>
        exact ⟨_, rfl, .frame (k := 0) _ (by decide) rfl (by decide)⟩
      case wrConfigShutdown | wrKeyMaskOff => exact ⟨_, rfl, .frame (k := 1) _ (by decide) rfl (by decide)⟩
      case wrDigit d j data => exact ⟨_, rfl, .frame (k := 2) _ (by decide) rfl (digitFrame_inside d j)⟩
      case rdKeyDebounced => exact ⟨_, rfl, .frame (k := 3) _ (by decide) rfl (by decide)⟩
      case hidReport v0 v1 => exact ⟨_, rfl, .report v0 v1⟩
      case hidReportDecode v0 v1 => exact ⟨_, rfl, .display (.inr ⟨wireValue_fits v0, wireValue_fits v1⟩)⟩
      case evUsbEp0Setup | evUsbEp0Out | evUsbEp0In | evUsbEp1Out | evUsbEp1In | evUsbUnknownEp => exact absurd hu nofun
      all_goals exact absurd hp nofun

/-! ### The dispatcher's choice, R256 -/

/-- R81, R256: the event words the dispatcher can choose. -/
inductive DispatchedEvent : Instr → Prop
  | spiByteComplete : DispatchedEvent .evSpiByteComplete
  | keyIrq : DispatchedEvent .evKeyIrq
  | usbEp0Setup : DispatchedEvent .evUsbEp0Setup
  | usbEp0Out : DispatchedEvent .evUsbEp0Out
  | usbEp0In : DispatchedEvent .evUsbEp0In
  | usbEp1Out : DispatchedEvent .evUsbEp1Out
  | usbEp1In : DispatchedEvent .evUsbEp1In
  | usbBusReset : DispatchedEvent .evUsbBusReset
  | usbBusOther : DispatchedEvent .evUsbBusOther
  | timerTick : DispatchedEvent .evTimerTick
  | usbUnknownEp {ep : BitVec 4} (d : Dir) (h0 : ep ≠ 0) (h1 : ep ≠ 1) : DispatchedEvent (.evUsbUnknownEp ep (dirBit d) 0)

/-- R259: the event word of the oldest completion, by its endpoint, its direction and its token. -/
theorem usbEvent_cons {s : State} {ep : BitVec 4} {d : Dir} {rest : List (BitVec 4 × Dir)}
    (h : s.trnFifo = (ep, d) :: rest) : usbEvent s = some (
      if ep = 0 then
        if d = .out then if s.bdEp0Out.pid = .setup then .evUsbEp0Setup else .evUsbEp0Out else .evUsbEp0In
      else if ep = 1 then if d = .out then .evUsbEp1Out else .evUsbEp1In
      else .evUsbUnknownEp ep (dirBit d) 0) := by
  simp only [usbEvent, h]
  cases d <;> simp only [reduceCtorEq, ↓reduceIte] <;> split_ifs <;> rfl

/-- The word the dispatcher gives the USB entry point. -/
theorem usbEvent_dispatched {s : State} {i : Instr} (h : usbEvent s = some i) : DispatchedEvent i := by
  rcases hqueue : s.trnFifo with _ | ⟨⟨ep, d⟩, rest⟩
  · rw [usbEvent, hqueue] at h
    exact absurd h nofun
  · rw [usbEvent_cons hqueue] at h
    obtain rfl := Option.some.inj h
    split_ifs with h0 hd hpid h1
    · exact .usbEp0Setup
    · exact .usbEp0Out
    · exact .usbEp0In
    · exact .usbEp1Out
    · exact .usbEp1In
    · exact .usbUnknownEp d h0 h1

/-- Whatever entry point is enabled first, the dispatcher runs one of these words. -/
theorem nextEvent_dispatched {s : State} {i : Instr} (h : nextEvent s = some i) : DispatchedEvent i := by
  unfold nextEvent at h
  split at h
  next ep _ =>
    cases ep with
    | spiByteComplete => obtain rfl := Option.some.inj h; exact .spiByteComplete
    | keyIrq => obtain rfl := Option.some.inj h; exact .keyIrq
    | usbTransaction => exact usbEvent_dispatched h
    | usbBusEvent =>
      obtain rfl := Option.some.inj h
      split
      · exact .usbBusReset
      · exact .usbBusOther
    | timerTick => obtain rfl := Option.some.inj h; exact .timerTick
  next => exact absurd h nofun

/-! ### One step -/

/-- The state with the schedule's next entry consumed; an empty schedule stays empty. -/
def consumed (s : State) : State := { s with inputs := s.inputs.tail }

/-- The CORE runs this instruction next: the dispatcher chose it, or a packet of the schedule is it. -/
def Chosen (i : Instr) (s : State) : Prop := nextEvent (consumed s) = some i ∨ nextPacketRuns i s

/-- The dispatcher's step: nothing enabled, or the event word it chose. -/
theorem runDispatcher_cases (s : State) :
    runDispatcher s = .next s ∨ ∃ i, nextEvent s = some i ∧ runDispatcher s = exec i s := by
  unfold runDispatcher
  cases nextEvent s with
  | none => exact .inl rfl
  | some i => exact .inr ⟨i, rfl, rfl⟩

/-- Everything a step can be. -/
theorem step_cases (s : State) :
    (∃ a rest, s.inputs = .agent a :: rest ∧ step s = agentStep a (consumed s)) ∨ step s = .next (consumed s) ∨
    (∃ i, Chosen i s ∧ step s = exec i (consumed s)) ∨ ∃ x, step s = .refused x := by
  rcases hin : s.inputs with _ | ⟨a | _ | p, rest⟩
  · have hs : consumed s = s := by rw [consumed, hin, List.tail_nil, ← hin]
    have hstep : step s = runDispatcher s := by rw [step, hin]
    rcases runDispatcher_cases s with h | ⟨i, hi, h⟩
    · exact .inr (.inl (by rw [hstep, h, hs]))
    · exact .inr (.inr (.inl ⟨i, .inl (by rw [hs, hi]), by rw [hstep, h, hs]⟩))
  · exact .inl ⟨a, rest, rfl, by rw [step, hin, consumed, hin]; rfl⟩
  · have hs : consumed s = { s with inputs := rest } := by rw [consumed, hin, List.tail_cons]
    have hstep : step s = runDispatcher (consumed s) := by rw [step, hin, hs]
    rcases runDispatcher_cases (consumed s) with h | ⟨i, hi, h⟩
    · exact .inr (.inl (by rw [hstep, h]))
    · exact .inr (.inr (.inl ⟨i, .inl hi, by rw [hstep, h]⟩))
  · have hs : consumed s = { s with inputs := rest } := by rw [consumed, hin, List.tail_cons]
    have hstep : step s = runPacket p (consumed s) := by rw [step, hin, hs]
    cases hd : decode s.cfg p with
    | ok i => exact .inr (.inr (.inl ⟨i, .inr ⟨p, rest, hin, hd⟩, by rw [hstep, hs, runPacket, hd]⟩))
    | error e => exact .inr (.inr (.inr ⟨.undecodable e, by rw [hstep, hs, runPacket, hd]⟩))

/-- A step that answers a next state: an agent's, an idle one, or a rule of the CORE. -/
theorem step_next_cases {s t : State} (h : step s = .next t) :
    (∃ a, agentStep a (consumed s) = .next t) ∨ t = consumed s ∨ ∃ i, Chosen i s ∧ Runs i (consumed s) (.ok t) := by
  rcases step_cases s with ⟨a, -, -, ha⟩ | hidle | ⟨i, hi, he⟩ | ⟨x, hx⟩
  · exact .inl ⟨a, ha.symm.trans h⟩
  · exact .inr (.inl (Host.Outcome.next.inj (h.symm.trans hidle)))
  · have hnext := he.symm.trans h
    cases hrow : refusedRow i with
    | true => exact absurd ((exec_refusedRow hrow _).symm.trans hnext) nofun
    | false =>
      obtain ⟨r, hr, hruns⟩ := exec_runs hrow (consumed s)
      have hok := hr.symm.trans hnext
      cases r with
      | error f => exact absurd hok nofun
      | ok u => exact .inr (.inr ⟨i, hi, Host.Outcome.next.inj hok ▸ hruns⟩)
  · exact absurd (hx.symm.trans h) nofun

/-- A step that is stuck: an agent's, or the USB entry point's. -/
theorem step_fault_cases {s : State} {f : Fault} (h : step s = .fault f) :
    (∃ a, agentStep a (consumed s) = .fault f) ∨ usbTransaction (consumed s) = .error f := by
  rcases step_cases s with ⟨a, -, -, ha⟩ | hidle | ⟨i, -, he⟩ | ⟨x, hx⟩
  · exact .inl ⟨a, ha.symm.trans h⟩
  · exact absurd (hidle.symm.trans h) nofun
  · have hfault := he.symm.trans h
    cases hrow : refusedRow i with
    | true => exact absurd ((exec_refusedRow hrow _).symm.trans hfault) nofun
    | false =>
      obtain ⟨r, hr, hruns⟩ := exec_runs hrow (consumed s)
      have herr := hr.symm.trans hfault
      cases r with
      | ok u => exact absurd herr nofun
      | error g =>
        obtain rfl := Host.Outcome.fault.inj herr
        cases hruns with
        | usb hu => exact .inr hu
        | request p hp =>
          obtain ⟨t, ht⟩ := dispatchSetup_completes p (consumed s)
          exact absurd (ht.symm.trans hp) nofun
  · exact absurd (hx.symm.trans h) nofun

/-- R259: what every completion's rule keeps, with the completion consumed before it, the whole USB entry point keeps. -/
theorem usbTransaction_keeps {I : State → Prop}
    (hroute : ∀ {s t : State} {e : BitVec 4 × Dir} {rest : List (BitVec 4 × Dir)}, s.trnFifo = e :: rest → I s →
      route e.1 e.2 { s with trnFifo := rest } = .ok t → I t)
    {s t : State} (hs : I s) (h : usbTransaction s = .ok t) : I t := by
  unfold usbTransaction at h
  generalize hq : s.trnFifo = q at h
  induction q generalizing s with
  | nil => exact Except.ok.inj h ▸ hs
  | cons e rest ih =>
    rw [drain] at h
    split at h
    next u hu =>
      have hqueue : u.trnFifo = rest := by simp [route_frame _ _ hu]
      exact ih (hroute hq hs hu) hqueue h
    next => exact absurd h nofun

end Sys2Proof.Machine
end

section
/-! PROOFS. The effects of the CORE: a small set of operations whose chains are all the rules of the block. A fact that
every effect keeps, every rule keeps. -/

namespace Sys2Proof.Machine

open Sys2Proof

/-! ### Updates nobody outside sees -/

/-- The state without the fields that no output, no record, no memory and no descriptor shows: the transfer, the flags of
the entry points but the engine's, the queue, the toggles, the schedule and the draws. -/
def visible (s : State) : State :=
  { s with
    spiPtr := 0, spiCallback := .none, shTx := 0, shRx := 0, keyIf := false, pendAddr := none, configured := false,
    ctlDir := .none, ctlSrcTable := .device, ctlSrcOff := 0, ctlDst := 0, ctlRemaining := 0, ctlToggle := 0,
    ctlZlp := false, ctlStatus := .none, ep1OutDts := 0, ep1InDts := 0, busResetIf := false, busOtherIf := false,
    timerIf := false, trnFifo := [], draws := 0, hostLog := [], inputs := [] }

/-- What states that look the same have in common. -/
theorem visible_fields {s t : State} (h : visible t = visible s) :
    t.cfg = s.cfg ∧ t.spiActive = s.spiActive ∧ t.spiRemaining = s.spiRemaining ∧ t.spiCs = s.spiCs ∧
    t.shBusy = s.shBusy ∧ t.shRxFull = s.shRxFull ∧ t.value0 = s.value0 ∧ t.value1 = s.value1 ∧ t.dpPos = s.dpPos ∧
    t.keyIe = s.keyIe ∧ t.usbAddr = s.usbAddr ∧ t.bdEp0Out = s.bdEp0Out ∧ t.bdEp0In = s.bdEp0In ∧
    t.bdEp1Out = s.bdEp1Out ∧ t.bdEp1In = s.bdEp1In ∧ t.ep1Enabled = s.ep1Enabled ∧ t.spiIf = s.spiIf ∧
    t.fatal = s.fatal ∧ t.faults = s.faults ∧ t.trace = s.trace ∧ t.ram = s.ram := by
  simpa [visible] using h

/-- An update of those fields only, which keeps the control transfer inside its bounds. -/
structure Silent (s t : State) : Prop where
  visible_eq : visible t = visible s
  transfer : TransferInv s → TransferInv t

/-- The transfer's bounds depend on the configuration and on six of its fields. -/
theorem transferInv_congr {s t : State} (hcfg : t.cfg = s.cfg) (hdir : t.ctlDir = s.ctlDir)
    (htable : t.ctlSrcTable = s.ctlSrcTable) (hoff : t.ctlSrcOff = s.ctlSrcOff) (hdst : t.ctlDst = s.ctlDst)
    (hrem : t.ctlRemaining = s.ctlRemaining) (h : TransferInv s) : TransferInv t :=
  ⟨by rw [hdir, hoff, hrem, hcfg, htable]; exact h.read, by rw [hdir, hdst, hrem]; exact h.write⟩

/-- With no data stage there are no bounds. -/
theorem transferInv_none {s : State} (h : s.ctlDir = .none) : TransferInv s :=
  ⟨fun hd => absurd (h.symm.trans hd) nofun, fun hd => absurd (h.symm.trans hd) nofun⟩

/-! ### A byte-complete event, R121 -/

/-- The end of a transaction before its callback: chip-select deasserted, the slot free (R304). -/
def slotFreed (s : State) : State := { setCs false s with spiActive := false, spiCallback := .none }

/-- What a byte-complete event does before a callback (R264, R121). -/
def byteHandled (s : State) : State :=
  let r := { s with spiIf := false }
  if s.spiActive = false then raiseModelFault .spiSpurious r
  else if (storeReceived r).spiRemaining = 0 then slotFreed (storeReceived r)
  else continueExchange (storeReceived r)

/-- The callback that follows it: the saved one at the transaction's end. -/
def byteCallback (s : State) : Callback :=
  if s.spiActive = true ∧ s.spiRemaining = 1 then s.spiCallback else .none

/-- The counter after a byte is stored (R121). -/
theorem storeReceived_remaining (s : State) : (storeReceived s).spiRemaining = s.spiRemaining - 1 := by
  simp [storeReceived]

/-- The last byte is the one stored while the counter is 1. -/
theorem remaining_sub_one_eq_zero (r : Byte) : r - 1 = 0 ↔ r = 1 := sub_eq_zero

/-- The three forms of a byte-complete event. -/
theorem byteHandled_cases (s : State) :
    (s.spiActive = false ∧ byteHandled s = raiseModelFault .spiSpurious { s with spiIf := false }) ∨
    (s.spiActive = true ∧ s.spiRemaining - 1 = 0 ∧
      byteHandled s = slotFreed (storeReceived { s with spiIf := false })) ∨
    (s.spiActive = true ∧ s.spiRemaining - 1 ≠ 0 ∧
      byteHandled s = continueExchange (storeReceived { s with spiIf := false })) := by
  have hrem := storeReceived_remaining { s with spiIf := false }
  by_cases hactive : s.spiActive = false
  · exact .inl ⟨hactive, if_pos hactive⟩
  · by_cases hlast : s.spiRemaining - 1 = 0
    · exact .inr (.inl ⟨by simpa using hactive, hlast, by rw [byteHandled, if_neg hactive, if_pos (hrem.trans hlast)]⟩)
    · exact .inr (.inr ⟨by simpa using hactive, hlast, by rw [byteHandled, if_neg hactive, if_neg (hrem ▸ hlast)]⟩)

/-- R121, R304: the byte handled, then the callback. -/
theorem spiByteComplete_eq (s : State) : spiByteComplete s = invokeCallback (byteCallback s) (byteHandled s) := by
  have hrem := storeReceived_remaining { s with spiIf := false }
  have hsaved : (storeReceived { s with spiIf := false }).spiCallback = s.spiCallback := by simp
  rcases byteHandled_cases s with ⟨hidle, hbyte⟩ | ⟨hactive, hlast, hbyte⟩ | ⟨hactive, hmore, hbyte⟩
  · have hcallback : byteCallback s = .none := if_neg (by simp [hidle])
    rw [hbyte, hcallback]
    exact if_pos hidle
  · have hcallback : byteCallback s = (storeReceived { s with spiIf := false }).spiCallback :=
      (if_pos ⟨hactive, (remaining_sub_one_eq_zero _).1 hlast⟩).trans hsaved.symm
    rw [hbyte, hcallback]
    exact (if_neg (by simp [hactive])).trans (if_pos (hrem.trans hlast))
  · have hcallback : byteCallback s = .none := if_neg fun h => hmore ((remaining_sub_one_eq_zero _).2 h.2)
    rw [hbyte, hcallback]
    exact (if_neg (by simp [hactive])).trans (if_neg (hrem ▸ hmore))

/-! ### The effects -/

/-- R89: the values of a report fit the wire. -/
theorem decodeReport_fits (r : List Byte) :
    (decodeReport0 r).toNat < 2 ^ 20 ∧ (decodeReport1 r).toNat < 2 ^ 20 :=
  ⟨wireValue_fits ((r.getD 2 0).extractLsb' 0 4 ++ r.getD 1 0 ++ r.getD 0 0),
    wireValue_fits (r.getD 4 0 ++ r.getD 3 0 ++ (r.getD 2 0).extractLsb' 4 4)⟩

/-- A chain of effects of the CORE. Where `lawful` holds, the values stored fit the wire if those before them did. -/
inductive Effect (lawful : Prop) : State → State → Prop
  | refl (s : State) : Effect lawful s s
  | trans {s t u : State} (h₁ : Effect lawful s t) (h₂ : Effect lawful t u) : Effect lawful s u
  | silent {s t : State} (h : Silent s t) : Effect lawful s t
  | raise (c : Cause) (s : State) : Effect lawful s (raise c s)
  | keyIe (b : Bool) (s : State) : Effect lawful s (setKeyIe b s)
  | exchange (buf : Word16) (len : Byte) (cb : Callback) (s : State) : Effect lawful s (startExchange buf len cb s)
  | byte {s : State} (h : s.spiIf = true) : Effect lawful s (byteHandled s)
  | write {a : Nat} {bs : List Byte} (h : a + bs.length ≤ 65536) (s : State) : Effect lawful s (coreWrite a bs s)
  | values {v0 v1 : StoredValue} {s : State}
      (h : lawful → ValuesInv s → v0.toNat < 2 ^ 20 ∧ v1.toNat < 2 ^ 20) : Effect lawful s (valuesStored v0 v1 s)
  | arm {e : BdId} {adr : Word16} {cnt : BitVec 10} {s : State} (dts : Toggle)
      (hadr : adr.toNat = (epBuffer s.cfg e).1) (hcnt : cnt.toNat ≤ (epBuffer s.cfg e).2) :
      Effect lawful s (arm e adr cnt dts s)
  | stallEp0In (s : State) : Effect lawful s (stall .ep0In s)
  | reclaim (e : BdId) (s : State) : Effect lawful s (reclaim e s)
  | address (a : BitVec 7) (s : State) : Effect lawful s (emit (.addr a) { s with usbAddr := a })
  | switch (b : Bool) (s : State) : Effect lawful s (emit (.ep1Enable b) { s with ep1Enabled := b })

namespace Effect

variable {lawful : Prop} {s t : State}

/-- A silent update of the transfer's fields that keeps its bounds. -/
theorem control (hv : visible t = visible s) (h : TransferInv s → TransferInv t) : Effect lawful s t :=
  .silent ⟨hv, h⟩

/-- A silent update beside the transfer. -/
theorem beside (hv : visible t = visible s) (hdir : t.ctlDir = s.ctlDir) (htable : t.ctlSrcTable = s.ctlSrcTable)
    (hoff : t.ctlSrcOff = s.ctlSrcOff) (hdst : t.ctlDst = s.ctlDst) (hrem : t.ctlRemaining = s.ctlRemaining) :
    Effect lawful s t :=
  .silent ⟨hv, transferInv_congr (visible_fields hv).1 hdir htable hoff hdst hrem⟩

/-! #### The silent updates of the rules, one by one -/

theorem queue (q : List (BitVec 4 × Dir)) (s : State) : Effect lawful s { s with trnFifo := q } :=
  .beside rfl rfl rfl rfl rfl rfl

theorem configured (b : Bool) (s : State) : Effect lawful s { s with configured := b } :=
  .beside rfl rfl rfl rfl rfl rfl

theorem keyIf (b : Bool) (s : State) : Effect lawful s { s with keyIf := b } := .beside rfl rfl rfl rfl rfl rfl

theorem busResetIf (b : Bool) (s : State) : Effect lawful s { s with busResetIf := b } :=
  .beside rfl rfl rfl rfl rfl rfl

theorem busOtherIf (b : Bool) (s : State) : Effect lawful s { s with busOtherIf := b } :=
  .beside rfl rfl rfl rfl rfl rfl

theorem timerIf (b : Bool) (s : State) : Effect lawful s { s with timerIf := b } := .beside rfl rfl rfl rfl rfl rfl

theorem reportToggles (o i : Toggle) (s : State) : Effect lawful s { s with ep1OutDts := o, ep1InDts := i } :=
  .beside rfl rfl rfl rfl rfl rfl

theorem pendAddr (a : Option (BitVec 7)) (s : State) : Effect lawful s { s with pendAddr := a } :=
  .beside rfl rfl rfl rfl rfl rfl

theorem status (x : CtlStatus) (s : State) : Effect lawful s { s with ctlStatus := x } :=
  .beside rfl rfl rfl rfl rfl rfl

theorem zlp (b : Bool) (s : State) : Effect lawful s { s with ctlZlp := b } := .beside rfl rfl rfl rfl rfl rfl

theorem toggle (d : Toggle) (s : State) : Effect lawful s { s with ctlToggle := d } := .beside rfl rfl rfl rfl rfl rfl

/-- The data stage over, whatever the other fields of the transfer are. -/
theorem stageOver (hv : visible t = visible s) (hdir : t.ctlDir = .none) : Effect lawful s t :=
  .control hv fun _ => transferInv_none hdir

/-! #### Reads -/

theorem afterRead (a n : Nat) (s : State) : Effect lawful s (afterRead a n s) := by
  rcases afterRead_cases a n s with ⟨-, h⟩ | ⟨-, h⟩ <;> rw [h]
  · exact .refl s
  · exact (Effect.raise (.model .unwrittenRead) s).trans (.beside rfl rfl rfl rfl rfl rfl)

theorem afterCoreRead (a n : Nat) (s : State) : Effect lawful s (afterCoreRead a n s) := by
  cases h : sieOwnsRange s a n with
  | false => rw [afterCoreRead_cpu h]; exact .afterRead a n s
  | true => rw [afterCoreRead_sie h]; exact (Effect.raise (.model .bdOwnership) s).trans (.afterRead a n _)

theorem readField (e : BdId) (s : State) : Effect lawful s (readField e s) := by
  unfold Machine.readField
  split
  · exact .raise (.model .bdOwnership) s
  · exact .refl s

/-! #### The driver, R145 to R153 -/

/-- A write that fills a buffer of the driver, then its request. -/
theorem driverRequest {i : Nat} {buf : Word16} {bytes : List Byte} (len : Byte) (cb : Callback)
    (hregion : s.cfg.regions[i]? = some (buf.toNat, bytes.length)) :
    Effect lawful s (startExchange buf len cb (coreWrite buf.toNat bytes s)) :=
  (Effect.write (config_regions_inside s.cfg hregion) s).trans (.exchange buf len cb _)

theorem initializeChip (s : State) : Effect lawful s (initializeChip s) := .driverRequest (i := 0) _ _ rfl

theorem initDone (s : State) : Effect lawful s (initDone s) := .keyIe true s

theorem terminate (s : State) : Effect lawful s (terminate s) :=
  (Effect.keyIe false s).trans (.driverRequest (i := 1) (s := setKeyIe false s) _ _ rfl)

theorem displayValues {v0 v1 : StoredValue}
    (h : lawful → ValuesInv s → v0.toNat < 2 ^ 20 ∧ v1.toNat < 2 ^ 20) : Effect lawful s (displayValues v0 v1 s) := by
  rw [displayValues_eq]
  exact (Effect.values h).trans (.driverRequest (i := 2) (s := valuesStored v0 v1 s) _ _ (by rw [dispBytes_length]; rfl))

theorem serviceInterrupt (s : State) : Effect lawful s (serviceInterrupt s) := .driverRequest (i := 3) _ _ rfl

theorem sendFrame {k : Nat} {buf : Word16} {n j : Nat} (w : BitVec 16)
    (hregion : s.cfg.regions[k]? = some (buf.toNat, n)) (hj : 2 * j + 2 ≤ n) : Effect lawful s (sendFrame buf j w s) := by
  have hinside := config_regions_inside s.cfg hregion
  refine (Effect.write ?_ s).trans (.exchange _ _ _ _)
  simp only [frameBytes, List.length_cons, List.length_nil, pFrame_eq]
  omega

/-! #### Endpoint 1, R226 to R230 -/

theorem armReport (s : State) : Effect lawful s (armReport s) := by
  refine (Effect.write (epBuffer_inside s.cfg .ep1In) s).trans (.arm _ ?_ ?_)
  · rw [(coreWrite_frame _ _ _).1]; rfl
  · simp [epBuffer]

theorem notifyNewValues (s : State) : Effect lawful s (notifyNewValues s) := by
  unfold Machine.notifyNewValues
  split_ifs
  · exact .refl s
  · exact .raise (.model .ep1InOverrun) s
  · exact .armReport s

/-- `EP1_OUT` armed at its buffer for a report. -/
theorem armEp1Out (dts : Toggle) (s : State) :
    Effect lawful s (Machine.arm .ep1Out s.cfg.addrEp1Out (BitVec.ofNat 10 pReportLen) dts s) :=
  .arm dts rfl (by simp [epBuffer])

theorem ep1Enable (s : State) : Effect lawful s (ep1Enable s) :=
  (((Effect.reportToggles 0 0 s).trans (.armEp1Out 0 _)).trans (.switch true _)).trans (.initializeChip _)

theorem reclaimIfArmed (e : BdId) (s : State) : Effect lawful s (reclaimIfArmed e s) := by
  unfold Machine.reclaimIfArmed
  split
  · exact .reclaim e s
  · exact .refl s

theorem ep1Disable (s : State) : Effect lawful s (ep1Disable s) :=
  (((Effect.terminate s).trans (.reclaimIfArmed .ep1Out _)).trans (.reclaimIfArmed .ep1In _)).trans (.switch false _)

theorem rearmEp1Out (s : State) : Effect lawful s (rearmEp1Out s) :=
  (Effect.reportToggles (s.ep1OutDts ^^^ 1) s.ep1InDts s).trans (.armEp1Out _ _)

theorem onEp1Out (s : State) : Effect lawful s (onEp1Out s) := by
  unfold Machine.onEp1Out
  split
  · exact .refl s
  · exact ((Effect.afterCoreRead _ _ s).trans (.displayValues fun _ _ => decodeReport_fits _)).trans (.rearmEp1Out _)

theorem onEp1In (s : State) : Effect lawful s (onEp1In s) := by
  rw [onEp1In_eq]
  exact .reportToggles _ _ s

/-! #### The callbacks and the byte-complete event, R121, R122, R153 -/

theorem swapValues (s : State) : Effect lawful s (swapValues s) :=
  (Effect.displayValues fun _ h => ⟨h.2, h.1⟩).trans (.notifyNewValues _)

theorem keyReadDone (s : State) : Effect lawful s (keyReadDone s) := by
  rw [keyReadDone_eq]
  split
  · exact (Effect.afterRead _ _ s).trans (.swapValues _)
  · exact .afterRead _ _ s

theorem invokeCallback (cb : Callback) (s : State) : Effect lawful s (invokeCallback cb s) := by
  cases cb with
  | none => exact .refl s
  | initDone => exact .initDone s
  | keyReadDone => exact .keyReadDone s

theorem spiByteComplete (h : s.spiIf = true) : Effect lawful s (spiByteComplete s) := by
  rw [spiByteComplete_eq]
  exact (Effect.byte h).trans (.invokeCallback _ _)

theorem keyIrq (s : State) : Effect lawful s (keyIrq s) := (Effect.keyIf false s).trans (.serviceInterrupt _)

end Effect

end Sys2Proof.Machine
end

section
/-! PROOFS. The control endpoint and the entry points as chains of effects, and with them every instruction and every
step of the CORE. -/

namespace Sys2Proof.Machine

open Sys2Proof

/-! ### The bounds of a transfer, R193 and R195 -/

/-- Counting down a 16-bit quantity by at most itself. -/
theorem toNat_sub_ofNat {x : Word16} {n : Nat} (h : n ≤ x.toNat) : (x - BitVec.ofNat 16 n).toNat = x.toNat - n := by
  have hx := x.isLt
  rw [BitVec.toNat_sub_of_le] <;> simp [BitVec.le_def, Nat.mod_eq_of_lt (show n < 65536 by omega)]
  exact h

/-- A 16-bit sum is at most the sum. -/
theorem toNat_add_ofNat_le (x : Word16) (n : Nat) : (x + BitVec.ofNat 16 n).toNat ≤ x.toNat + n := by
  simp only [BitVec.toNat_add, BitVec.toNat_ofNat]
  omega

/-- The cursor moved past bytes of the table that were owed (R193). -/
theorem transferInv_sent {s : State} {n : Nat} (hn : n ≤ s.ctlRemaining.toNat) (h : TransferInv s) :
    TransferInv { s with
      ctlSrcOff := s.ctlSrcOff + BitVec.ofNat 16 n, ctlRemaining := s.ctlRemaining - BitVec.ofNat 16 n } where
  read hdir := by
    have := h.read hdir
    have := toNat_add_ofNat_le s.ctlSrcOff n
    simp only [toNat_sub_ofNat hn]
    omega
  write hdir := by
    have := h.write hdir
    simp only [toNat_sub_ofNat hn]
    omega

/-- The write offset moved past bytes that were expected (R195). -/
theorem transferInv_received {s : State} {n : Nat} (d : Toggle) (hn : n ≤ s.ctlRemaining.toNat) (h : TransferInv s) :
    TransferInv { s with
      ctlDst := s.ctlDst + BitVec.ofNat 16 n, ctlRemaining := s.ctlRemaining - BitVec.ofNat 16 n, ctlToggle := d } where
  read hdir := by
    have := h.read hdir
    simp only [toNat_sub_ofNat hn]
    omega
  write hdir := by
    have := h.write hdir
    have := toNat_add_ofNat_le s.ctlDst n
    simp only [toNat_sub_ofNat hn]
    omega

/-- A read of the table's bytes answers as many as it was asked for. -/
theorem romRead_length {c : Config} {t : DescId} {k n : Nat} {bytes : List Byte} (h : romRead c t k n = .ok bytes) :
    bytes.length = n := by
  unfold romRead at h
  split at h
  next hk =>
    obtain rfl := Except.ok.inj h
    simp only [List.length_take, List.length_drop]
    omega
  next => exact absurd h nofun

/-- The answer of a chunk that was sent: at most 32 bytes and at most what was owed (R193). -/
theorem sendChunk_inv {s t : State} (h : sendChunk s = .ok t) :
    ∃ bytes : List Byte, bytes.length = min s.ctlRemaining.toNat 32 ∧ t = armChunk bytes s := by
  unfold sendChunk at h
  split at h
  next bytes hb => exact ⟨bytes, romRead_length hb, (Except.ok.inj h).symm⟩
  next => exact absurd h nofun

/-- The answer of a CORE read at an address of the state (R61). -/
theorem memRead_inv {a n : Nat} {s : State} {x : List Byte × State} (h : memRead a n s = .ok x) :
    x = (readBytes s a n, afterCoreRead a n s) := by
  unfold memRead at h
  split at h
  · exact (Except.ok.inj h).symm
  · exact absurd h nofun

/-- The answer of a CORE write at an address of the state (R62). -/
theorem memWrite_inv {a : Nat} {bs : List Byte} {s t : State} (h : memWrite a bs s = .ok t) :
    a + bs.length ≤ 65536 ∧ t = coreWrite a bs s := by
  unfold memWrite at h
  split at h
  next hle => exact ⟨hle, (Except.ok.inj h).symm⟩
  next => exact absurd h nofun

/-- A packet of a control write that was taken (R195): read, stored, counted. -/
theorem controlWriteData_inv {c : Nat} {s t : State} (h : controlWriteData c s = .ok t) :
    ∃ (a : Nat) (bytes : List Byte), bytes.length = min c s.ctlRemaining.toNat ∧ a + bytes.length ≤ 65536 ∧
      t = finishWriteData c bytes.length (coreWrite a bytes (afterCoreRead s.cfg.addrEp0Out.toNat bytes.length s)) := by
  unfold controlWriteData at h
  simp only at h
  split at h
  next => exact absurd h nofun
  next bytes r hr =>
    obtain ⟨rfl, rfl⟩ := Prod.mk.inj (memRead_inv hr)
    split at h
    next => exact absurd h nofun
    next w hw =>
      obtain ⟨hle, rfl⟩ := memWrite_inv hw
      exact ⟨_, _, readBytes_length _ _ _, hle, by rw [readBytes_length]; exact (Except.ok.inj h).symm⟩

/-- A completion of `EP0_OUT` that was handled (R197). -/
theorem handleEp0Out_inv {s t : State} (h : handleEp0Out s = .ok t) : ∃ u, t = armEp0Out u ∧
    ((s.ctlDir = .h2d ∧ controlWriteData s.bdEp0Out.cnt.toNat s = .ok u) ∨
     (s.ctlDir ≠ .h2d ∧ (s.ctlDir = .d2h ∨ s.ctlStatus = .statusOut) ∧ u = endRead s) ∨
     (s.ctlDir ≠ .h2d ∧ ¬(s.ctlDir = .d2h ∨ s.ctlStatus = .statusOut) ∧ u = s)) := by
  unfold handleEp0Out at h
  split at h
  next hdir =>
    split at h
    next u hu => exact ⟨u, (Except.ok.inj h).symm, .inl ⟨hdir, hu⟩⟩
    next => exact absurd h nofun
  next hdir =>
    split at h
    next hread => exact ⟨_, (Except.ok.inj h).symm, .inr (.inl ⟨hdir, hread, rfl⟩)⟩
    next hread => exact ⟨_, (Except.ok.inj h).symm, .inr (.inr ⟨hdir, hread, rfl⟩)⟩

/-- A completion of `EP0_IN` that was handled (R196). -/
theorem onEp0In_inv {s t : State} (h : onEp0In s = .ok t) :
    (s.ctlDir = .d2h ∧ s.ctlRemaining ≠ 0 ∧ sendChunk s = .ok t) ∨
    (s.ctlDir = .d2h ∧ s.ctlRemaining = 0 ∧ s.ctlZlp = true ∧ sendChunk { s with ctlZlp := false } = .ok t) ∨
    (s.ctlDir = .d2h ∧ s.ctlRemaining = 0 ∧ s.ctlZlp = false ∧
      t = { s with ctlDir := .none, ctlStatus := .statusOut }) ∨
    (s.ctlDir ≠ .d2h ∧ s.ctlStatus = .statusIn ∧ t = applyAddress { s with ctlStatus := .none }) ∨
    (s.ctlDir ≠ .d2h ∧ s.ctlStatus ≠ .statusIn ∧ t = s) := by
  unfold onEp0In at h
  split_ifs at h with hdir hrem hzlp hstatus
  · exact .inl ⟨hdir, hrem, h⟩
  · exact .inr (.inl ⟨hdir, not_not.1 hrem, hzlp, h⟩)
  · exact .inr (.inr (.inl ⟨hdir, not_not.1 hrem, by simpa using hzlp, (Except.ok.inj h).symm⟩))
  · exact .inr (.inr (.inr (.inl ⟨hdir, hstatus, (Except.ok.inj h).symm⟩)))
  · exact .inr (.inr (.inr (.inr ⟨hdir, hstatus, (Except.ok.inj h).symm⟩)))

/-- A Setup that was handled (R172). -/
theorem onSetup_inv {s t : State} (h : onSetup s = .ok t) : ∃ u, t = armEp0Out u ∧
    dispatchSetup (.ofBytes (readBytes s s.cfg.addrEp0Out.toNat 8))
      (cancelTransfer (afterCoreRead s.cfg.addrEp0Out.toNat 8 s)) = .ok u := by
  unfold onSetup at h
  simp only at h
  split at h
  next u hu => exact ⟨u, (Except.ok.inj h).symm, hu⟩
  next => exact absurd h nofun

/-- The rule a completion is given to (R260). -/
theorem route_inv {ep : BitVec 4} {d : Dir} {s t : State} (h : route ep d s = .ok t) :
    (ep = 0 ∧ d = .out ∧ s.bdEp0Out.pid = .setup ∧ onSetup (readField .ep0Out s) = .ok t) ∨
    (ep = 0 ∧ d = .out ∧ s.bdEp0Out.pid ≠ .setup ∧ onEp0Out (readField .ep0Out s) = .ok t) ∨
    (ep = 0 ∧ d = .inn ∧ onEp0In s = .ok t) ∨
    (ep = 1 ∧ d = .out ∧ t = onEp1Out s) ∨ (ep = 1 ∧ d = .inn ∧ t = onEp1In s) ∨
    (ep ≠ 0 ∧ ep ≠ 1 ∧ t = s) := by
  unfold route at h
  split at h
  next h0 =>
    cases d
    · by_cases hpid : s.bdEp0Out.pid = .setup
      · exact .inl ⟨h0, rfl, hpid, by simpa [hpid] using h⟩
      · exact .inr (.inl ⟨h0, rfl, hpid, by simpa [hpid] using h⟩)
    · exact .inr (.inr (.inl ⟨h0, rfl, h⟩))
  next h0 =>
    split at h
    next h1 =>
      cases d
      · exact .inr (.inr (.inr (.inl ⟨h1, rfl, (Except.ok.inj h).symm⟩)))
      · exact .inr (.inr (.inr (.inr (.inl ⟨h1, rfl, (Except.ok.inj h).symm⟩))))
    next h1 => exact .inr (.inr (.inr (.inr (.inr ⟨h0, h1, (Except.ok.inj h).symm⟩))))

/-! ### The control endpoint as effects -/

namespace Effect

variable {lawful : Prop} {s t : State}

theorem cancelTransfer (s : State) : Effect lawful s (cancelTransfer s) := by
  unfold Machine.cancelTransfer
  dsimp only
  split
  · exact (Effect.reclaim .ep0In s).trans (.stageOver rfl rfl)
  · exact .stageOver rfl rfl

theorem armEp0Out (s : State) : Effect lawful s (armEp0Out s) := .arm _ rfl (by simp [epBuffer])

theorem statusIn (s : State) : Effect lawful s (statusIn s) :=
  (Effect.arm (e := .ep0In) (cnt := 0) 1 rfl (by simp [epBuffer])).trans (.status .statusIn _)

theorem rejectRequest (c : FatalCause) (s : State) : Effect lawful s (rejectRequest c s) :=
  (Effect.stallEp0In s).trans (.raise (.fatal c) _)

/-- The cursor of a read moved past bytes it owed. -/
theorem sent {n : Nat} (hn : n ≤ s.ctlRemaining.toNat) : Effect lawful s { s with
    ctlSrcOff := s.ctlSrcOff + BitVec.ofNat 16 n, ctlRemaining := s.ctlRemaining - BitVec.ofNat 16 n } :=
  .control rfl (transferInv_sent hn)

/-- The write offset moved past bytes that were expected. -/
theorem received {n : Nat} (d : Toggle) (hn : n ≤ s.ctlRemaining.toNat) : Effect lawful s { s with
    ctlDst := s.ctlDst + BitVec.ofNat 16 n, ctlRemaining := s.ctlRemaining - BitVec.ofNat 16 n, ctlToggle := d } :=
  .control rfl (transferInv_received d hn)

/-- A read begun inside its table. -/
theorem readBegun {d : DescId} {total : Nat} (x : Toggle) (z : Bool) (htotal : total ≤ (s.cfg.rom d).length) :
    Effect lawful s { s with
      ctlDir := .d2h, ctlSrcTable := d, ctlSrcOff := 0, ctlRemaining := BitVec.ofNat 16 total, ctlToggle := x,
      ctlZlp := z } :=
  .control rfl fun _ => ⟨fun _ => by
    have hzero : (0 : Word16).toNat = 0 := rfl
    simp only [hzero, BitVec.toNat_ofNat]
    omega, nofun⟩

/-- A write begun at the start of the sink buffer. -/
theorem writeBegun (x : Toggle) (s : State) :
    Effect lawful s { s with ctlDir := .h2d, ctlDst := 0, ctlRemaining := BitVec.ofNat 16 pEp0Max, ctlToggle := x } :=
  .control rfl fun _ => ⟨nofun, fun _ => by simp⟩

theorem armChunk {bytes : List Byte} (hmax : bytes.length ≤ 32) (howed : bytes.length ≤ s.ctlRemaining.toNat) :
    Effect lawful s (armChunk bytes s) := by
  have hinside := epBuffer_inside s.cfg .ep0In
  simp only [epBuffer, pEp0Max_eq] at hinside
  have hwritten : Effect lawful s (coreWrite s.cfg.addrEp0In.toNat bytes s) := .write (by omega) s
  have howed' : bytes.length ≤ (coreWrite s.cfg.addrEp0In.toNat bytes s).ctlRemaining.toNat := by simpa using howed
  have hcnt : (BitVec.ofNat 10 bytes.length).toNat ≤ 32 := by
    rw [BitVec.toNat_ofNat]
    omega
  exact ((hwritten.trans (.sent howed')).trans (.arm _ rfl hcnt)).trans (.toggle _ _)

theorem sendChunk (h : sendChunk s = .ok t) : Effect lawful s t := by
  obtain ⟨bytes, hlength, rfl⟩ := sendChunk_inv h
  exact .armChunk (by omega) (by omega)

theorem startControlRead {d : DescId} {wLength : Word16} (h : startControlRead d wLength s = .ok t) :
    Effect lawful s t :=
  (Effect.readBegun _ _ (Nat.min_le_right _ _)).trans (.sendChunk h)

theorem setReportSink (m : Word16) (s : State) : Effect lawful s (setReportSink m s) := by
  unfold Machine.setReportSink
  split
  · exact .refl s
  · split
    · exact (Effect.afterCoreRead _ _ s).trans (.displayValues fun _ _ => decodeReport_fits _)
    · exact .refl s

theorem finishWriteData {n : Nat} (c : Nat) (hn : n ≤ s.ctlRemaining.toNat) :
    Effect lawful s (finishWriteData c n s) := by
  have hcounted := Effect.received (lawful := lawful) (if c = pEp0Max then s.ctlToggle ^^^ 1 else s.ctlToggle) hn
  unfold Machine.finishWriteData
  dsimp only
  split
  · refine Effect.trans ?_ (.statusIn _)
    refine Effect.trans ?_ (.setReportSink _ _)
    exact hcounted.trans (.stageOver rfl rfl)
  · exact hcounted

theorem controlWriteData {c : Nat} (h : controlWriteData c s = .ok t) : Effect lawful s t := by
  obtain ⟨a, bytes, hlength, hle, rfl⟩ := controlWriteData_inv h
  refine ((Effect.afterCoreRead _ _ s).trans (.write hle _)).trans (.finishWriteData c ?_)
  simp only [coreWrite_frame, afterCoreRead_frame]
  omega

theorem applyAddress (s : State) : Effect lawful s (applyAddress s) := by
  unfold Machine.applyAddress
  split
  · exact .refl s
  · exact (Effect.pendAddr none s).trans (.address _ _)

theorem onEp0In (h : onEp0In s = .ok t) : Effect lawful s t := by
  rcases onEp0In_inv h with ⟨-, -, h⟩ | ⟨-, -, -, h⟩ | ⟨-, -, -, rfl⟩ | ⟨-, -, rfl⟩ | ⟨-, -, rfl⟩
  · exact .sendChunk h
  · exact (Effect.zlp false s).trans (.sendChunk h)
  · exact .stageOver rfl rfl
  · exact (Effect.status .none s).trans (.applyAddress _)
  · exact .refl _

theorem endRead (s : State) : Effect lawful s (endRead s) :=
  (Effect.reclaimIfArmed .ep0In s).trans (.stageOver rfl rfl)

theorem handleEp0Out (h : handleEp0Out s = .ok t) : Effect lawful s t := by
  obtain ⟨u, rfl, ⟨-, hu⟩ | ⟨-, -, rfl⟩ | ⟨-, -, rfl⟩⟩ := handleEp0Out_inv h
  · exact (Effect.controlWriteData hu).trans (.armEp0Out u)
  · exact (Effect.endRead s).trans (.armEp0Out _)
  · exact .armEp0Out _

theorem onEp0Out (h : onEp0Out s = .ok t) : Effect lawful s t :=
  (Effect.readField .ep0Out s).trans (.handleEp0Out h)

/-! #### The requests, R180 to R194 -/

theorem getDescString {index : Byte} {wLength : Word16} (h : getDescString index wLength s = .ok t) :
    Effect lawful s t := by
  unfold Machine.getDescString at h
  split_ifs at h
  · exact .startControlRead h
  · exact .startControlRead h
  · exact .startControlRead h
  · exact Except.ok.inj h ▸ .rejectRequest _ s

theorem getDescQualifier (s : State) : Effect lawful s (getDescQualifier s) := by
  unfold Machine.getDescQualifier
  split
  · exact (Effect.stallEp0In s).trans (.raise (.fatal .deviceQualifier) _)
  · exact .stallEp0In s

theorem setAddressRequest (v : Word16) (s : State) : Effect lawful s (setAddressRequest v s) := by
  unfold Machine.setAddressRequest
  split
  · exact .rejectRequest _ s
  · exact (Effect.pendAddr (some (v.extractLsb' 0 7)) s).trans (.statusIn _)

theorem setConfigurationRequest (cv : Byte) (s : State) : Effect lawful s (setConfigurationRequest cv s) := by
  unfold Machine.setConfigurationRequest
  split_ifs
  · exact ((Effect.ep1Disable s).trans (.configured false _)).trans (.statusIn _)
  · exact .statusIn s
  · exact ((Effect.ep1Enable s).trans (.configured true _)).trans (.statusIn _)
  · exact .statusIn s
  · exact .rejectRequest _ s

theorem setInterfaceRequest (v : Word16) (s : State) : Effect lawful s (setInterfaceRequest v s) := by
  unfold Machine.setInterfaceRequest
  split
  · exact .statusIn s
  · exact .rejectRequest _ s

theorem setReportRequest (ty : Byte) (s : State) : Effect lawful s (setReportRequest ty s) := by
  unfold Machine.setReportRequest
  split
  · exact .rejectRequest _ s
  · exact .writeBegun 1 s

theorem dispatchSetup {p : SetupPacket} (h : dispatchSetup p s = .ok t) : Effect lawful s t := by
  simp only [Machine.dispatchSetup, stdDevice, stdInterface, stdEndpoint, classInterface, getDescriptorOnDevice,
    getDescDevice, getDescConfig, getDescReport] at h
  split_ifs at h
  all_goals first
    | exact .startControlRead h
    | exact .getDescString h
    | obtain rfl := Except.ok.inj h
  · exact .getDescQualifier s
  · exact .rejectRequest _ s
  · exact .setAddressRequest _ s
  · exact .setConfigurationRequest _ s
  · exact .rejectRequest _ s
  · exact .rejectRequest _ s
  · exact .setInterfaceRequest _ s
  · exact .rejectRequest _ s
  · exact .rejectRequest _ s
  · exact .setReportRequest _ s
  · exact .statusIn s
  · exact .rejectRequest _ s
  · exact .rejectRequest _ s
  · exact .rejectRequest _ s

theorem onSetup (h : onSetup s = .ok t) : Effect lawful s t := by
  obtain ⟨u, rfl, hu⟩ := onSetup_inv h
  exact (((Effect.afterCoreRead _ _ s).trans (.cancelTransfer _)).trans (.dispatchSetup hu)).trans (.armEp0Out u)

/-! #### The entry points, R259 to R266, and the instructions -/

theorem route {ep : BitVec 4} {d : Dir} (h : route ep d s = .ok t) : Effect lawful s t := by
  rcases route_inv h with ⟨-, -, -, h⟩ | ⟨-, -, -, h⟩ | ⟨-, -, h⟩ | ⟨-, -, rfl⟩ | ⟨-, -, rfl⟩ | ⟨-, -, rfl⟩
  · exact (Effect.readField .ep0Out s).trans (.onSetup h)
  · exact (Effect.readField .ep0Out s).trans (.onEp0Out h)
  · exact .onEp0In h
  · exact .onEp1Out s
  · exact .onEp1In s
  · exact .refl _

theorem usbTransaction (h : usbTransaction s = .ok t) : Effect lawful s t :=
  usbTransaction_keeps (I := Effect lawful s)
    (fun _ hu hroute => (hu.trans (.queue _ _)).trans (.route hroute)) (.refl s) h

theorem deconfigured (s : State) : Effect lawful s (deconfigured s) := by
  unfold Machine.deconfigured
  dsimp only
  split
  · exact ((Effect.queue [] s).trans (.ep1Disable _)).trans (.configured false _)
  · exact .queue [] s

theorem busReset (s : State) : Effect lawful s (busReset s) :=
  ((((Effect.deconfigured s).trans (.address 0 _)).trans (.cancelTransfer _)).trans (.reclaimIfArmed .ep0Out _)).trans
    (.armEp0Out _)

theorem usbBusEvent (s : State) : Effect lawful s (usbBusEvent s) := by
  by_cases hreset : s.busResetIf = true
  · rw [usbBusEvent_of_busResetIf hreset]
    exact ((Effect.busResetIf false s).trans (.busReset _)).trans (.busOtherIf false _)
  · rw [Machine.usbBusEvent, if_neg hreset]
    split
    · exact .busOtherIf false s
    · exact .refl s

/-- Every rule an instruction runs is a chain of effects; lawful where a `CALL` of `DisplayValues` has lawful values. -/
theorem runs {i : Instr} (hlawful : ∀ v0 v1, i = .callDisplayValues v0 v1 → lawful → v0.toNat < 2 ^ 20 ∧ v1.toNat < 2 ^ 20)
    (h : Runs i s (.ok t)) : Effect lawful s t := by
  cases h with
  | idle => exact .refl s
  | byteComplete hif => exact .spiByteComplete hif
  | keyIrq => exact .keyIrq s
  | usb hu => exact .usbTransaction hu
  | bus => exact .usbBusEvent s
  | tick => exact .timerIf false s
  | exchange buf len cb => exact .exchange buf len cb s
  | callback cb => exact .invokeCallback cb s
  | chipInit => exact .initializeChip s
  | terminate => exact .terminate s
  | service => exact .serviceInterrupt s
  | notify => exact .notifyNewValues s
  | display hv => exact .displayValues fun hl _ => hv.elim (fun hi => hlawful _ _ hi hl) id
  | enable => exact .ep1Enable s
  | disable => exact .ep1Disable s
  | signal c => exact .raise c s
  | frame w hk hregion hj => exact .sendFrame w hregion hj
  | request p hp => exact .dispatchSetup hp
  | report v0 v1 => exact .write (epBuffer_inside s.cfg .ep1In) s

end Effect

/-- Every step of the CORE is a chain of effects from the state with the schedule's entry consumed. -/
theorem step_effect {s t : State} (h : step s = .next t) :
    (∃ a, agentStep a (consumed s) = .next t) ∨
    Effect (∀ v0 v1, nextPacketRuns (.callDisplayValues v0 v1) s → v0.toNat < 2 ^ 20 ∧ v1.toNat < 2 ^ 20)
      (consumed s) t := by
  rcases step_next_cases h with ha | rfl | ⟨i, hi, hruns⟩
  · exact .inl ha
  · exact .inr (.refl _)
  · refine .inr (.runs (fun v0 v1 hcall hl => ?_) hruns)
    subst hcall
    rcases hi with hdispatched | hpacket
    · exact absurd (nextEvent_dispatched hdispatched) nofun
    · exact hl v0 v1 hpacket

end Sys2Proof.Machine
end

section
/-! PROOFS. The steps of the agents, case by case, and the invariants that every effect and every agent keeps: the form of
memory, the bounds of the buffers and of the transfer, the engine, the stored values. -/

namespace Sys2Proof.Machine

open Sys2Proof

/-! ### The agents, R46 to R51 -/

/-- Everything a step of an agent can be. -/
inductive AgentMove (s : State) : State → Prop
  | shifter (rx : Byte) : AgentMove s (shifterStep rx s)
  | sees (h : HostEvent) : AgentMove s (hostSees h s)
  | takes {ep : Endpoint} {bytes : List Byte} (p : Pid) (hsie : (s.bd (outBd ep)).own = .sie)
      (hlength : bytes.length ≤ (s.bd (outBd ep)).cnt.toNat ∨ (ep = .ep0 ∧ bytes.length = 8))
      (hspace : (s.bd (outBd ep)).adr.toNat + bytes.length ≤ 65536) :
      AgentMove s (hostSees (.ack (outBd ep)) (completeOut ep p bytes s))
  | gives {ep : Endpoint} (hsie : (s.bd (inBd ep)).own = .sie) : AgentMove s (completeIn ep s)
  | raises (key reset other tick : Bool) :
      AgentMove s { s with keyIf := key, busResetIf := reset, busOtherIf := other, timerIf := tick }

/-- A descriptor is the CPU's or the SIE's. -/
theorem owner_sie_of_ne_cpu {o : Owner} (h : o ≠ .cpu) : o = .sie := by
  cases o
  · exact absurd rfl h
  · rfl

/-- A packet that was taken was lawful and inside the space (R47). -/
theorem takeOut_next {ep : Endpoint} {p : Pid} {lawful : Bool} {bytes : List Byte} {s t : State}
    (h : takeOut ep p lawful bytes s = .next t) :
    lawful = true ∧ (s.bd (outBd ep)).adr.toNat + bytes.length ≤ 65536 ∧
      t = hostSees (.ack (outBd ep)) (completeOut ep p bytes s) := by
  unfold takeOut at h
  split_ifs at h with hl hspace
  exact ⟨by simpa using hl, hspace, (Host.Outcome.next.inj h).symm⟩

/-- What an agent's step answers. -/
theorem agentStep_move {a : AgentStep} {s t : State} (h : agentStep a s = .next t) : AgentMove s t := by
  cases a with
  | shifter rx => exact Host.Outcome.next.inj h ▸ .shifter rx
  | hostSetup bytes =>
    simp only [agentStep, hostSetupStep] at h
    split_ifs at h with hcpu hstall
    · exact Host.Outcome.next.inj h ▸ .sees _
    · exact Host.Outcome.next.inj h ▸ .sees _
    · obtain ⟨hlawful, hspace, rfl⟩ := takeOut_next h
      exact .takes (ep := .ep0) .setup (owner_sie_of_ne_cpu hcpu) (.inr ⟨rfl, of_decide_eq_true hlawful⟩) hspace
  | hostOut ep toggle bytes =>
    simp only [agentStep, hostOutStep] at h
    split_ifs at h with hcpu hstall hdrop
    · exact Host.Outcome.next.inj h ▸ .sees _
    · exact Host.Outcome.next.inj h ▸ .sees _
    · exact Host.Outcome.next.inj h ▸ .sees _
    · obtain ⟨hlawful, hspace, rfl⟩ := takeOut_next h
      exact .takes .out (owner_sie_of_ne_cpu hcpu) (.inl (of_decide_eq_true hlawful)) hspace
  | hostIn ep =>
    simp only [agentStep, hostInStep] at h
    split_ifs at h with hcpu hstall hspace
    · exact Host.Outcome.next.inj h ▸ .sees _
    · exact Host.Outcome.next.inj h ▸ .sees _
    · exact Host.Outcome.next.inj h ▸ .gives (owner_sie_of_ne_cpu hcpu)
  | keyEdge => exact Host.Outcome.next.inj h ▸ .raises true s.busResetIf s.busOtherIf s.timerIf
  | busReset => exact Host.Outcome.next.inj h ▸ .raises s.keyIf true s.busOtherIf s.timerIf
  | busOther => exact Host.Outcome.next.inj h ▸ .raises s.keyIf s.busResetIf true s.timerIf
  | timerTick => exact Host.Outcome.next.inj h ▸ .raises s.keyIf s.busResetIf s.busOtherIf true

/-- Every descriptor after the SIE took a packet. -/
theorem completeOut_bd (ep : Endpoint) (p : Pid) (bytes : List Byte) (s : State) (e : BdId) :
    (completeOut ep p bytes s).bd e = if e = outBd ep then
      { s.bd (outBd ep) with cnt := BitVec.ofNat 10 bytes.length, pid := p, own := .cpu } else s.bd e := by
  rw [completeOut, bd_setBd]
  rfl

/-- Every descriptor after the HOST read a packet. -/
theorem completeIn_bd (ep : Endpoint) (s : State) (e : BdId) :
    (completeIn ep s).bd e = if e = inBd ep then { s.bd (inBd ep) with pid := .inn, own := .cpu } else s.bd e := by
  rw [completeIn, bd_setBd]
  split
  · rfl
  · exact bd_congr (by simp) e

/-! ### What a byte-complete event leaves as it is -/

/-- R121 writes the engine, memory, the record and the trace. -/
@[simp] theorem byteHandled_frame (s : State) :
    (byteHandled s).cfg = s.cfg ∧ (byteHandled s).value0 = s.value0 ∧ (byteHandled s).value1 = s.value1 ∧
    (byteHandled s).ctlDir = s.ctlDir ∧ (byteHandled s).ctlSrcTable = s.ctlSrcTable ∧
    (byteHandled s).ctlSrcOff = s.ctlSrcOff ∧ (byteHandled s).ctlDst = s.ctlDst ∧
    (byteHandled s).ctlRemaining = s.ctlRemaining ∧ (byteHandled s).bdEp0Out = s.bdEp0Out ∧
    (byteHandled s).bdEp0In = s.bdEp0In ∧ (byteHandled s).bdEp1Out = s.bdEp1Out ∧
    (byteHandled s).bdEp1In = s.bdEp1In := by
  rcases byteHandled_cases s with ⟨-, h⟩ | ⟨-, -, h⟩ | ⟨-, -, h⟩ <;> rw [h]
  · simp
  · simp [slotFreed]
  · simp

/-! ### The form of memory, R53 and R62 -/

/-- The slot just sent is an address of the space. -/
theorem storeReceived_wf {s : State} (h : s.ram.wf = true) : (storeReceived s).ram.wf = true := by
  have hslot := s.spiPtr.isLt
  exact coreWrite_wf (s := afterShifterRead s) h (by simp only [List.length_singleton]; omega)

/-- R121 keeps the form. -/
theorem byteHandled_wf {s : State} (h : s.ram.wf = true) : (byteHandled s).ram.wf = true := by
  have hstored := storeReceived_wf (s := { s with spiIf := false }) h
  rcases byteHandled_cases s with ⟨-, hb⟩ | ⟨-, -, hb⟩ | ⟨-, -, hb⟩ <;> rw [hb]
  · simpa using h
  · simpa [slotFreed] using hstored
  · simpa using hstored

/-- Every effect keeps the form. -/
theorem Effect.ram_wf {l : Prop} {s t : State} (h : Effect l s t) : s.ram.wf = true → t.ram.wf = true := by
  induction h with
  | refl => exact id
  | trans _ _ ih₁ ih₂ => exact ih₂ ∘ ih₁
  | silent hs =>
    obtain ⟨hv, -⟩ := hs
    exact fun hwf => by simpa [visible_fields hv] using hwf
  | byte => exact byteHandled_wf
  | write hle s => exact fun hwf => coreWrite_wf hwf hle
  | raise | keyIe | exchange | arm | stallEp0In | reclaim | address | switch => simp
  | values => exact id

/-- The SIE stores its packet inside the space. -/
theorem completeOut_wf {ep : Endpoint} {bytes : List Byte} {s : State} (p : Pid) (h : s.ram.wf = true)
    (hspace : (s.bd (outBd ep)).adr.toNat + bytes.length ≤ 65536) : (completeOut ep p bytes s).ram.wf = true := by
  have hram : (completeOut ep p bytes s).ram = s.ram.setAll (s.bd (outBd ep)).adr.toNat bytes := by
    simp [completeOut]
  rw [hram]
  exact Memory.wf_setAll h hspace

/-- Every agent keeps the form. -/
theorem AgentMove.ram_wf {s t : State} (h : AgentMove s t) (hwf : s.ram.wf = true) : t.ram.wf = true := by
  cases h with
  | shifter | sees | gives => simpa using hwf
  | takes p hsie hlength hspace => simpa using completeOut_wf p hwf hspace
  | raises => exact hwf

/-- Settles O55: every effect and every agent keeps the canonical form. -/
theorem stepKeepsMemoryForm : Obligations.StepKeepsMemoryForm := by
  intro s t hwf hstep
  rcases step_effect hstep with ⟨a, ha⟩ | heffect
  · exact (agentStep_move ha).ram_wf hwf
  · exact heffect.ram_wf hwf

/-! ### The bounds of the buffers, R36, R37, R47 -/

/-- The bounds depend on the configuration and the descriptors. -/
theorem buffersInv_congr {s t : State} (hcfg : t.cfg = s.cfg) (hbd : ∀ e, t.bd e = s.bd e) (h : BuffersInv s) :
    BuffersInv t := by
  intro e
  rw [hbd, hcfg]
  exact h e

/-- They depend on the address and the count of each. -/
theorem buffersInv_of_fields {s t : State} (hcfg : t.cfg = s.cfg)
    (hbd : ∀ e, (t.bd e).adr = (s.bd e).adr ∧ (t.bd e).cnt = (s.bd e).cnt) (h : BuffersInv s) : BuffersInv t := by
  intro e
  rw [(hbd e).1, (hbd e).2, hcfg]
  exact h e

/-- Every effect keeps the bounds of the buffers. -/
theorem Effect.buffersInv {l : Prop} {s t : State} (h : Effect l s t) : BuffersInv s → BuffersInv t := by
  induction h with
  | refl => exact id
  | trans _ _ ih₁ ih₂ => exact ih₂ ∘ ih₁
  | silent hs =>
    obtain ⟨hv, -⟩ := hs
    exact buffersInv_congr (visible_fields hv).1 (bd_congr (by simp [visible_fields hv]))
  | raise | keyIe | exchange | byte | write => exact buffersInv_congr (by simp) (bd_congr (by simp))
  | values | address | switch => exact buffersInv_congr rfl (bd_congr ⟨rfl, rfl, rfl, rfl⟩)
  | @arm e adr cnt s dts hadr hcnt =>
    intro hs e'
    rw [(arm_frame e adr cnt dts s).1, arm_bd]
    split_ifs with he
    · exact ⟨he.2 ▸ hadr, he.2 ▸ hcnt⟩
    · exact hs e'
  | stallEp0In s =>
    refine buffersInv_of_fields (by simp) fun e => ?_
    rw [stall_bd]
    split_ifs with he
    · exact ⟨he.2 ▸ rfl, he.2 ▸ rfl⟩
    · exact ⟨rfl, rfl⟩
  | reclaim e s =>
    refine buffersInv_of_fields (by simp) fun e' => ?_
    rw [reclaim_bd]
    split_ifs with he
    · exact ⟨he ▸ rfl, he ▸ rfl⟩
    · exact ⟨rfl, rfl⟩

/-- Every agent keeps them: a packet is no longer than its buffer. -/
theorem AgentMove.buffersInv {s t : State} (h : AgentMove s t) (hs : BuffersInv s) : BuffersInv t := by
  cases h with
  | shifter | sees => exact buffersInv_congr (by simp) (bd_congr (by simp)) hs
  | raises => exact buffersInv_congr rfl (bd_congr ⟨rfl, rfl, rfl, rfl⟩) hs
  | gives =>
    refine buffersInv_of_fields (by simp) (fun e => ?_) hs
    rw [completeIn_bd]
    split_ifs with he
    · exact ⟨he ▸ rfl, he ▸ rfl⟩
    · exact ⟨rfl, rfl⟩
  | @takes ep bytes p hsie hlength hspace =>
    refine buffersInv_congr (s := completeOut ep p bytes s) (by simp) (bd_congr (by simp)) fun e => ?_
    rw [(completeOut_frame ep p bytes s).1, completeOut_bd]
    split_ifs with he
    · obtain ⟨hadr, hcnt⟩ := hs (outBd ep)
      refine ⟨he ▸ hadr, ?_⟩
      rw [he, BitVec.toNat_ofNat]
      rcases hlength with hle | ⟨rfl, h8⟩
      · exact (Nat.mod_le _ _).trans (hle.trans hcnt)
      · simp [h8, outBd, epBuffer]
    · exact hs e

/-! ### The bounds of the transfer, R193 and R195 -/

/-- Every effect keeps the bounds of the transfer. -/
theorem Effect.transferInv {l : Prop} {s t : State} (h : Effect l s t) : TransferInv s → TransferInv t := by
  induction h with
  | refl => exact id
  | trans _ _ ih₁ ih₂ => exact ih₂ ∘ ih₁
  | silent hs => exact hs.transfer
  | raise | keyIe | exchange | byte | write | arm | stallEp0In | reclaim =>
    exact transferInv_congr (by simp) (by simp) (by simp) (by simp) (by simp) (by simp)
  | values | address | switch => exact transferInv_congr rfl rfl rfl rfl rfl rfl

/-- No agent touches the transfer. -/
theorem AgentMove.transferInv {s t : State} (h : AgentMove s t) (hs : TransferInv s) : TransferInv t := by
  cases h with
  | shifter | sees | takes | gives =>
    exact transferInv_congr (by simp) (by simp) (by simp) (by simp) (by simp) (by simp) hs
  | raises => exact transferInv_congr (s := s) rfl rfl rfl rfl rfl rfl hs

/-- Settles O56: every effect and every agent keeps both. -/
theorem stepKeepsContainment : Obligations.StepKeepsContainment := by
  intro s t hbuffers hs hstep
  have htransfer : TransferInv (consumed s) := transferInv_congr (s := s) rfl rfl rfl rfl rfl rfl hs
  rcases step_effect hstep with ⟨a, ha⟩ | heffect
  · have hmove := agentStep_move ha
    exact ⟨hmove.buffersInv hbuffers, hmove.transferInv htransfer⟩
  · exact ⟨heffect.buffersInv hbuffers, heffect.transferInv htransfer⟩

/-! ### The engine, R126 -/

/-- The engine's invariant depends on six of its fields. -/
theorem engineInv_congr {s t : State} (hactive : t.spiActive = s.spiActive) (hrem : t.spiRemaining = s.spiRemaining)
    (hcs : t.spiCs = s.spiCs) (hbusy : t.shBusy = s.shBusy) (hfull : t.shRxFull = s.shRxFull) (hif : t.spiIf = s.spiIf)
    (h : EngineInv s) : EngineInv t := by
  refine ⟨fun hi => ?_, fun ha => ?_⟩
  · rw [hbusy, hfull, hif, hcs]
    exact h.idle (hactive ▸ hi)
  · rw [hrem, hcs, ByteInFlight, ByteWaiting, hbusy, hfull, hif]
    exact h.active (hactive ▸ ha)

/-- R120: a request that takes the slot leaves one byte in flight; any other leaves the engine. -/
theorem startExchange_engineInv (buf : Word16) (len : Byte) (cb : Callback) {s : State} (h : EngineInv s) :
    EngineInv (startExchange buf len cb s) := by
  rcases startExchange_engine buf len cb s with ⟨hidle, hlen, hfull, ha, hr, hcs, hb⟩ | ⟨ha, hr, hcs, hb⟩
  · obtain ⟨-, -, hif, -⟩ := h.idle hidle
    refine ⟨fun hi => absurd (ha.symm.trans hi) nofun, fun _ => ⟨by rwa [hr], hcs, .inl ⟨hb, ?_, ?_⟩⟩⟩
    · simpa using hif
    · simpa using hfull
  · exact engineInv_congr ha hr hcs hb (by simp) (by simp) h

/-- R121: with the flag set a transaction is active and its byte waits; its end frees the slot, the next byte is in
flight. -/
theorem byteHandled_engineInv {s : State} (hif : s.spiIf = true) (h : EngineInv s) : EngineInv (byteHandled s) := by
  rcases byteHandled_cases s with ⟨hidle, -⟩ | ⟨hactive, -, hb⟩ | ⟨hactive, hmore, hb⟩
  · obtain ⟨-, -, hclear, -⟩ := h.idle hidle
    exact absurd (hif.symm.trans hclear) nofun
  all_goals
    obtain ⟨-, hcs, hbyte⟩ := h.active hactive
    have hwaiting : ByteWaiting s := hbyte.resolve_left fun hf => absurd (hif.symm.trans hf.2.1) nofun
    rw [hb]
  · refine ⟨fun _ => ⟨?_, ?_, ?_, rfl⟩, fun ha => absurd ha nofun⟩
    · simpa [slotFreed] using hwaiting.1
    · simp [slotFreed, storeReceived, afterShifterRead, emit]
    · simp [slotFreed]
  · have hrem := storeReceived_remaining { s with spiIf := false }
    refine ⟨fun hi => ?_, fun _ => ⟨?_, ?_, .inl ⟨?_, ?_, ?_⟩⟩⟩
    · simp [hactive] at hi
    · simpa [hrem] using hmore
    · unfold continueExchange
      split
      · simp [setCs, emit]
      · simpa using hcs
    · simp [continueExchange, sendByte, shifterWrite, emit]
    · simp
    · simp [storeReceived, afterShifterRead, emit]

/-- Every effect keeps the engine's invariant. -/
theorem Effect.engineInv {l : Prop} {s t : State} (h : Effect l s t) : EngineInv s → EngineInv t := by
  induction h with
  | refl => exact id
  | trans _ _ ih₁ ih₂ => exact ih₂ ∘ ih₁
  | silent hs =>
    have hf := visible_fields hs.visible_eq
    exact engineInv_congr (by simp [hf]) (by simp [hf]) (by simp [hf]) (by simp [hf]) (by simp [hf]) (by simp [hf])
  | exchange buf len cb s => exact startExchange_engineInv buf len cb
  | byte hif => exact byteHandled_engineInv hif
  | raise | keyIe | write | arm | stallEp0In | reclaim =>
    exact engineInv_congr (by simp) (by simp) (by simp) (by simp) (by simp) (by simp)
  | values | address | switch => exact engineInv_congr rfl rfl rfl rfl rfl rfl

/-- R46: the byte in flight arrives; with none the SHIFTER has no step. -/
theorem shifterStep_engineInv (rx : Byte) {s : State} (h : EngineInv s) : EngineInv (shifterStep rx s) := by
  unfold shifterStep
  split
  next hbusy =>
    refine ⟨fun hi => ?_, fun ha => ?_⟩
    · exact absurd (hbusy.symm.trans (h.idle hi).1) nofun
    · obtain ⟨hrem, hcs, -⟩ := h.active ha
      exact ⟨hrem, hcs, .inr ⟨rfl, rfl, rfl⟩⟩
  next => exact h

/-- Every agent keeps the engine's invariant. -/
theorem AgentMove.engineInv {s t : State} (h : AgentMove s t) (hs : EngineInv s) : EngineInv t := by
  cases h with
  | shifter rx => exact shifterStep_engineInv rx hs
  | sees | takes | gives =>
    exact engineInv_congr (by simp) (by simp) (by simp) (by simp) (by simp) (by simp) hs
  | raises => exact engineInv_congr (s := s) rfl rfl rfl rfl rfl rfl hs

/-- Settles O51: the request, the byte-complete event and the SHIFTER are the three that touch the engine. -/
theorem stepKeepsEngine : Obligations.StepKeepsEngine := by
  intro s t hs hstep
  have hconsumed : EngineInv (consumed s) := engineInv_congr (s := s) rfl rfl rfl rfl rfl rfl hs
  rcases step_effect hstep with ⟨a, ha⟩ | heffect
  · exact (agentStep_move ha).engineInv hconsumed
  · exact heffect.engineInv hconsumed

/-! ### The stored values, R227 -/

/-- Every lawful effect keeps the values below 2^20. -/
theorem Effect.valuesInv {l : Prop} (hl : l) {s t : State} (h : Effect l s t) : ValuesInv s → ValuesInv t := by
  induction h with
  | refl => exact id
  | trans _ _ ih₁ ih₂ => exact ih₂ ∘ ih₁
  | silent hs => exact fun hv => by simpa [ValuesInv, visible_fields hs.visible_eq] using hv
  | raise | keyIe | exchange | byte | write | arm | stallEp0In | reclaim | address | switch => simp [ValuesInv]
  | values hvalues => exact fun hv => hvalues hl hv

/-- No agent touches the values. -/
theorem AgentMove.valuesInv {s t : State} (h : AgentMove s t) (hs : ValuesInv s) : ValuesInv t := by
  cases h with
  | shifter | sees | takes | gives => simpa [ValuesInv] using hs
  | raises => exact hs

/-- Settles O54: a report's values and the swapped ones fit the wire, and so do those of the `CALL`. -/
theorem stepKeepsValues : Obligations.StepKeepsValues := by
  intro s t hcall hs hstep
  rcases step_effect hstep with ⟨a, ha⟩ | heffect
  · exact (agentStep_move ha).valuesInv hs
  · exact heffect.valuesInv hcall hs

end Sys2Proof.Machine
end

section
/-! PROOFS. The record and the trace: what only grows, and that every output that changes is reported (R38, R42). Then the
faults: inside its bounds no step is stuck. -/

namespace Sys2Proof.Machine

open Sys2Proof

/-! ### What every step keeps of the record, the trace and the constants -/

/-- The constants kept, the records grown, and every changed output reported. -/
structure Logged (s t : State) : Prop where
  constants : sameConstants s t
  grows : recordGrows s t
  reported : outputsReported s t

/-- A report of a change in two steps: an output that differs at the end changed in one of them. -/
theorem outputsReported_trans {s t u : State} (h₁ : outputsReported s t) (h₂ : outputsReported t u) :
    outputsReported s u := by
  obtain ⟨new₁, htrace₁, hcs₁, hkey₁, haddr₁, hen₁, hfatal₁⟩ := h₁
  obtain ⟨new₂, htrace₂, hcs₂, hkey₂, haddr₂, hen₂, hfatal₂⟩ := h₂
  have hlast {α : Type} [DecidableEq α] {x y z : α} {e : α → Event} (hxy : y ≠ x → e y ∈ new₁) (hyz : z ≠ y → e z ∈ new₂)
      (hxz : z ≠ x) : e z ∈ new₁ ++ new₂ := by
    by_cases heq : z = y
    · subst heq; exact List.mem_append_left _ (hxy hxz)
    · exact List.mem_append_right _ (hyz heq)
  refine ⟨new₁ ++ new₂, by rw [htrace₂, htrace₁, List.append_assoc], hlast hcs₁ hcs₂, hlast hkey₁ hkey₂,
    hlast haddr₁ haddr₂, hlast hen₁ hen₂, fun hne => ?_⟩
  by_cases heq : u.fatal = t.fatal
  · obtain ⟨c, hc⟩ := hfatal₁ (heq ▸ hne)
    exact ⟨c, List.mem_append_left _ hc⟩
  · obtain ⟨c, hc⟩ := hfatal₂ heq
    exact ⟨c, List.mem_append_right _ hc⟩

namespace Logged

variable {s t u : State}

/-- An update that changes no output and appends to the record and the trace. -/
theorem extend {more : List Cause} {new : List Event} (hcfg : t.cfg = s.cfg) (hdp : t.dpPos = s.dpPos)
    (hfatal : t.fatal = s.fatal) (hfaults : t.faults = s.faults ++ more) (htrace : t.trace = s.trace ++ new)
    (hcs : t.spiCs = s.spiCs) (hkey : t.keyIe = s.keyIe) (haddr : t.usbAddr = s.usbAddr)
    (hen : t.ep1Enabled = s.ep1Enabled) : Logged s t where
  constants := ⟨hcfg, hdp⟩
  grows := ⟨fun h => hfatal ▸ h, ⟨more, hfaults.symm⟩, ⟨new, htrace.symm⟩⟩
  reported := ⟨new, htrace, fun h => absurd hcs h, fun h => absurd hkey h, fun h => absurd haddr h,
    fun h => absurd hen h, fun h => absurd hfatal h⟩

theorem refl (s : State) : Logged s s :=
  .extend rfl rfl rfl (List.append_nil _).symm (List.append_nil _).symm rfl rfl rfl rfl

theorem trans (h₁ : Logged s t) (h₂ : Logged t u) : Logged s u where
  constants := ⟨h₂.constants.1.trans h₁.constants.1, h₂.constants.2.trans h₁.constants.2⟩
  grows := ⟨h₂.grows.1 ∘ h₁.grows.1, h₁.grows.2.1.trans h₂.grows.2.1, h₁.grows.2.2.trans h₂.grows.2.2⟩
  reported := outputsReported_trans h₁.reported h₂.reported

/-! #### The shared operations -/

theorem emit (e : Event) (s : State) : Logged s (emit e s) :=
  .extend rfl rfl rfl (List.append_nil _).symm rfl rfl rfl rfl rfl

theorem raiseModelFault (c : ModelCause) (s : State) : Logged s (raiseModelFault c s) :=
  .extend rfl rfl rfl rfl rfl rfl rfl rfl rfl

theorem raiseFatal (c : FatalCause) (s : State) : Logged s (raiseFatal c s) where
  constants := ⟨rfl, rfl⟩
  grows := ⟨fun _ => rfl, ⟨[.fatal c], rfl⟩, ⟨[.fatal c], rfl⟩⟩
  reported := ⟨[.fatal c], rfl, fun h => absurd rfl h, fun h => absurd rfl h, fun h => absurd rfl h,
    fun h => absurd rfl h, fun _ => ⟨c, List.mem_singleton_self _⟩⟩

theorem raise (c : Cause) (s : State) : Logged s (raise c s) := by
  cases c with
  | fatal c => exact .raiseFatal c s
  | model c => exact .raiseModelFault c s

theorem raiseAll (cs : List Cause) (s : State) : Logged s (raiseAll cs s) := by
  induction cs generalizing s with
  | nil => exact .refl s
  | cons c cs ih => exact (Logged.raise c s).trans (ih _)

theorem setCs (b : Bool) (s : State) : Logged s (setCs b s) where
  constants := ⟨rfl, rfl⟩
  grows := ⟨id, ⟨[], List.append_nil _⟩, ⟨[.cs b], rfl⟩⟩
  reported := ⟨[.cs b], rfl, fun _ => List.mem_singleton_self _, fun h => absurd rfl h, fun h => absurd rfl h,
    fun h => absurd rfl h, fun h => absurd rfl h⟩

theorem setKeyIe (b : Bool) (s : State) : Logged s (setKeyIe b s) where
  constants := ⟨rfl, rfl⟩
  grows := ⟨id, ⟨[], List.append_nil _⟩, ⟨[.keyIe b], rfl⟩⟩
  reported := ⟨[.keyIe b], rfl, fun h => absurd rfl h, fun _ => List.mem_singleton_self _, fun h => absurd rfl h,
    fun h => absurd rfl h, fun h => absurd rfl h⟩

theorem address (a : BitVec 7) (s : State) : Logged s (Machine.emit (.addr a) { s with usbAddr := a }) where
  constants := ⟨rfl, rfl⟩
  grows := ⟨id, ⟨[], List.append_nil _⟩, ⟨[.addr a], rfl⟩⟩
  reported := ⟨[.addr a], rfl, fun h => absurd rfl h, fun h => absurd rfl h, fun _ => List.mem_singleton_self _,
    fun h => absurd rfl h, fun h => absurd rfl h⟩

theorem switch (b : Bool) (s : State) : Logged s (Machine.emit (.ep1Enable b) { s with ep1Enabled := b }) where
  constants := ⟨rfl, rfl⟩
  grows := ⟨id, ⟨[], List.append_nil _⟩, ⟨[.ep1Enable b], rfl⟩⟩
  reported := ⟨[.ep1Enable b], rfl, fun h => absurd rfl h, fun h => absurd rfl h, fun h => absurd rfl h,
    fun _ => List.mem_singleton_self _, fun h => absurd rfl h⟩

/-- An update of fields that are no output, no record and no constant. -/
theorem quiet (hcfg : t.cfg = s.cfg) (hdp : t.dpPos = s.dpPos) (hfatal : t.fatal = s.fatal)
    (hfaults : t.faults = s.faults) (htrace : t.trace = s.trace) (hcs : t.spiCs = s.spiCs) (hkey : t.keyIe = s.keyIe)
    (haddr : t.usbAddr = s.usbAddr) (hen : t.ep1Enabled = s.ep1Enabled) : Logged s t :=
  .extend hcfg hdp hfatal (by rw [hfaults, List.append_nil]) (by rw [htrace, List.append_nil]) hcs hkey haddr hen

/-- An updated descriptor. -/
theorem setBd (e : BdId) (b : BufferDescriptor) (s : State) : Logged s (s.setBd e b) :=
  .quiet (by simp) (by simp) (by simp) (by simp) (by simp) (by simp) (by simp) (by simp) (by simp)

theorem afterCoreRead (a n : Nat) (s : State) : Logged s (afterCoreRead a n s) := by
  obtain ⟨causes, -, h⟩ := afterCoreRead_causes a n s
  rw [h]
  exact .extend rfl rfl rfl rfl rfl rfl rfl rfl rfl

theorem coreWrite (a : Nat) (bs : List Byte) (s : State) : Logged s (coreWrite a bs s) := by
  rcases coreWrite_cases a bs s with ⟨-, h⟩ | ⟨-, h⟩ <;> rw [h]
  · exact .quiet rfl rfl rfl rfl rfl rfl rfl rfl rfl
  · exact .raiseModelFault _ s

theorem arm (e : BdId) (adr : Word16) (cnt : BitVec 10) (dts : Toggle) (s : State) :
    Logged s (arm e adr cnt dts s) := by
  unfold Machine.arm
  split
  · exact .raiseModelFault _ s
  · exact (Logged.setBd e _ s).trans (.emit _ _)

theorem stall (e : BdId) (s : State) : Logged s (stall e s) := by
  unfold Machine.stall
  split
  · exact .raiseModelFault _ s
  · exact (Logged.setBd e _ s).trans (.emit _ _)

theorem reclaim (e : BdId) (s : State) : Logged s (reclaim e s) := (Logged.setBd e _ s).trans (.emit _ _)

/-! #### The engine -/

theorem sendByte (a : Nat) (s : State) : Logged s (sendByte a s) :=
  (Logged.afterCoreRead a 1 s).trans
    (.extend rfl rfl rfl (List.append_nil _).symm rfl rfl rfl rfl rfl)

theorem startExchange (buf : Word16) (len : Byte) (cb : Callback) (s : State) :
    Logged s (startExchange buf len cb s) := by
  unfold Machine.startExchange
  split
  · have htaken : Logged s { s with spiActive := true, spiPtr := buf, spiRemaining := len, spiCallback := cb } :=
      .quiet rfl rfl rfl rfl rfl rfl rfl rfl rfl
    exact (htaken.trans (.setCs true _)).trans (.sendByte _ _)
  · exact .raiseAll _ s

theorem storeReceived (s : State) : Logged s (storeReceived s) := by
  have hread : Logged s (afterShifterRead s) := .extend rfl rfl rfl (List.append_nil _).symm rfl rfl rfl rfl rfl
  exact (hread.trans (.coreWrite _ _ _)).trans (.quiet rfl rfl rfl rfl rfl rfl rfl rfl rfl)

theorem continueExchange (s : State) : Logged s (continueExchange s) := by
  refine Logged.trans ?_ (.sendByte _ _)
  split
  · exact (Logged.setCs false s).trans (.setCs true _)
  · exact .refl s

theorem slotFreed (s : State) : Logged s (slotFreed s) :=
  (Logged.setCs false s).trans (.quiet rfl rfl rfl rfl rfl rfl rfl rfl rfl)

theorem byteHandled (s : State) : Logged s (byteHandled s) := by
  have hcleared : Logged s { s with spiIf := false } := .quiet rfl rfl rfl rfl rfl rfl rfl rfl rfl
  rcases byteHandled_cases s with ⟨-, h⟩ | ⟨-, -, h⟩ | ⟨-, -, h⟩ <;> rw [h]
  · exact hcleared.trans (.raiseModelFault _ _)
  · exact (hcleared.trans (.storeReceived _)).trans (.slotFreed _)
  · exact (hcleared.trans (.storeReceived _)).trans (.continueExchange _)

end Logged

/-- Every effect is logged. -/
theorem Effect.logged {l : Prop} {s t : State} (h : Effect l s t) : Logged s t := by
  induction h with
  | refl s => exact .refl s
  | trans _ _ ih₁ ih₂ => exact ih₁.trans ih₂
  | silent hs =>
    have hf := visible_fields hs.visible_eq
    exact .quiet (by simp [hf]) (by simp [hf]) (by simp [hf]) (by simp [hf]) (by simp [hf]) (by simp [hf]) (by simp [hf])
      (by simp [hf]) (by simp [hf])
  | raise c s => exact .raise c s
  | keyIe b s => exact .setKeyIe b s
  | exchange buf len cb s => exact .startExchange buf len cb s
  | byte => exact .byteHandled _
  | write _ s => exact .coreWrite _ _ s
  | values => exact .quiet rfl rfl rfl rfl rfl rfl rfl rfl rfl
  | arm => exact .arm _ _ _ _ _
  | stallEp0In s => exact .stall .ep0In s
  | reclaim e s => exact .reclaim e s
  | address a s => exact .address a s
  | switch b s => exact .switch b s

/-- So is every agent's step: of an agent only the draw of an unwritten byte is recorded. -/
theorem AgentMove.logged {s t : State} (h : AgentMove s t) : Logged s t := by
  cases h with
  | shifter rx =>
    unfold shifterStep
    split
    · exact .quiet rfl rfl rfl rfl rfl rfl rfl rfl rfl
    · exact .refl s
  | sees e => exact .quiet rfl rfl rfl rfl rfl rfl rfl rfl rfl
  | takes =>
    exact .quiet (by simp) (by simp) (by simp) (by simp) (by simp) (by simp) (by simp) (by simp) (by simp)
  | @gives ep hsie =>
    have hseen (e : HostEvent) : Logged s (hostSees e s) := .quiet rfl rfl rfl rfl rfl rfl rfl rfl rfl
    have hread (a n : Nat) (r : State) : Logged r (afterRead a n r) := Effect.logged (l := True) (.afterRead a n r)
    have hqueued (q : List (BitVec 4 × Dir)) (r : State) : Logged r { r with trnFifo := q } :=
      .quiet rfl rfl rfl rfl rfl rfl rfl rfl rfl
    exact (((hseen _).trans (hread _ _ _)).trans (hqueued _ _)).trans (.setBd _ _ _)
  | raises => exact .quiet rfl rfl rfl rfl rfl rfl rfl rfl rfl

/-- And so is every step. -/
theorem step_logged {s t : State} (h : step s = .next t) : Logged s t := by
  have hconsumed : Logged s (consumed s) := .quiet rfl rfl rfl rfl rfl rfl rfl rfl rfl
  rcases step_effect h with ⟨a, ha⟩ | heffect
  · exact hconsumed.trans (agentStep_move ha).logged
  · exact hconsumed.trans heffect.logged

/-- Settles O58. -/
theorem recordsGrow : Obligations.RecordsGrow := fun _ _ h => ⟨(step_logged h).grows, (step_logged h).constants⟩

/-- Settles O59. -/
theorem changesAreReported : Obligations.ChangesAreReported := fun _ _ h => (step_logged h).reported

/-! ### No step is stuck, R61, R62, R193 -/

/-- Inside its bounds a read finds the chunk in its table (R193). -/
theorem sendChunk_completes {s : State} (h : TransferInv s) (hdir : s.ctlDir = .d2h) : ∃ t, sendChunk s = .ok t := by
  have := h.read hdir
  exact ⟨_, sendChunk_ok (by omega)⟩

/-- Inside its bounds a control write reads the packet's buffer and stores into the sink (R195). -/
theorem controlWriteData_completes {s : State} (hb : BuffersInv s) (ht : TransferInv s) (hdir : s.ctlDir = .h2d) :
    ∃ t, controlWriteData s.bdEp0Out.cnt.toNat s = .ok t := by
  obtain ⟨-, hcnt⟩ := hb .ep0Out
  have hroom := ht.write hdir
  have hpacket := epBuffer_inside s.cfg .ep0Out
  have hsink := config_regions_inside s.cfg (i := 4) rfl
  simp only [State.bd, epBuffer, pEp0Max_eq] at hcnt hpacket hsink
  have hread : memRead s.cfg.addrEp0Out.toNat (min s.bdEp0Out.cnt.toNat s.ctlRemaining.toNat) s = .ok _ :=
    if_pos (by omega)
  have hwrite (bytes : List Byte) (hlength : bytes.length = min s.bdEp0Out.cnt.toNat s.ctlRemaining.toNat) (r : State) :
      memWrite (s.cfg.addrBufSetrep.toNat + s.ctlDst.toNat) bytes r = .ok _ := if_pos (by omega)
  simp only [controlWriteData, hread, afterCoreRead_frame, hwrite _ (readBytes_length _ _ _)]
  exact ⟨_, rfl⟩

/-- R172: a Setup always completes. -/
theorem onSetup_completes (s : State) : ∃ t, onSetup s = .ok t := by
  obtain ⟨u, hu⟩ := dispatchSetup_completes (.ofBytes (readBytes s s.cfg.addrEp0Out.toNat 8))
    (cancelTransfer (afterCoreRead s.cfg.addrEp0Out.toNat 8 s))
  simp only [onSetup, hu]
  exact ⟨_, rfl⟩

/-- R196 inside the bounds. -/
theorem onEp0In_completes {s : State} (h : TransferInv s) : ∃ t, onEp0In s = .ok t := by
  unfold onEp0In
  split_ifs with hdir
  · exact sendChunk_completes h hdir
  · exact sendChunk_completes (s := { s with ctlZlp := false })
      (transferInv_congr (s := s) rfl rfl rfl rfl rfl rfl h) hdir
  all_goals exact ⟨_, rfl⟩

/-- R197 inside the bounds. -/
theorem onEp0Out_completes {s : State} (hb : BuffersInv s) (ht : TransferInv s) : ∃ t, onEp0Out s = .ok t := by
  have hread : Effect True s (readField .ep0Out s) := .readField .ep0Out s
  unfold onEp0Out handleEp0Out
  split_ifs with hdir
  · obtain ⟨t, h⟩ := controlWriteData_completes (hread.buffersInv hb) (hread.transferInv ht) hdir
    simp only [h]
    exact ⟨_, rfl⟩
  all_goals exact ⟨_, rfl⟩

/-- R260 inside the bounds. -/
theorem route_completes (ep : BitVec 4) (d : Dir) {s : State} (hb : BuffersInv s) (ht : TransferInv s) :
    ∃ t, route ep d s = .ok t := by
  have hread : Effect True s (readField .ep0Out s) := .readField .ep0Out s
  unfold route
  split
  · cases d
    · dsimp only
      split
      · exact onSetup_completes _
      · exact onEp0Out_completes (hread.buffersInv hb) (hread.transferInv ht)
    · exact onEp0In_completes ht
  · split
    · cases d <;> exact ⟨_, rfl⟩
    · exact ⟨_, rfl⟩

/-- R259: the bounds hold through the whole queue, so the entry point completes. -/
theorem drain_completes (q : List (BitVec 4 × Dir)) {s : State} (hb : BuffersInv s) (ht : TransferInv s) :
    ∃ t, drain q s = .ok t := by
  induction q generalizing s with
  | nil => exact ⟨s, rfl⟩
  | cons e rest ih =>
    have hqueue : Effect True s { s with trnFifo := rest } := .queue rest s
    obtain ⟨t, h⟩ := route_completes e.1 e.2 (hqueue.buffersInv hb) (hqueue.transferInv ht)
    have hroute : Effect True _ t := .route h
    simp only [drain, h]
    exact ih (hroute.buffersInv (hqueue.buffersInv hb)) (hroute.transferInv (hqueue.transferInv ht))

/-- A lawful packet fits the buffer its descriptor points at (R47). -/
theorem takeOut_ne_fault {ep : Endpoint} {p : Pid} {lawful : Bool} {bytes : List Byte} {s : State} (f : Fault)
    (hb : BuffersInv s) (hlawful : lawful = true → bytes.length ≤ (epBuffer s.cfg (outBd ep)).2) :
    takeOut ep p lawful bytes s ≠ .fault f := by
  have hinside := epBuffer_inside s.cfg (outBd ep)
  obtain ⟨hadr, -⟩ := hb (outBd ep)
  unfold takeOut
  split_ifs with hl hspace
  · exact nofun
  · exact nofun
  · have := hlawful (by simpa using hl)
    omega

/-- Inside the bounds no agent is stuck. -/
theorem agentStep_ne_fault {s : State} (hb : BuffersInv s) (a : AgentStep) (f : Fault) : agentStep a s ≠ .fault f := by
  cases a with
  | hostSetup bytes =>
    simp only [agentStep, hostSetupStep]
    split_ifs
    · exact nofun
    · exact nofun
    · refine takeOut_ne_fault f hb fun hlawful => ?_
      simp [of_decide_eq_true hlawful, outBd, epBuffer]
  | hostOut ep toggle bytes =>
    simp only [agentStep, hostOutStep]
    split_ifs
    · exact nofun
    · exact nofun
    · exact nofun
    · exact takeOut_ne_fault f hb fun hlawful => (of_decide_eq_true hlawful).trans (hb (outBd ep)).2
  | hostIn ep =>
    have hinside := epBuffer_inside s.cfg (inBd ep)
    obtain ⟨hadr, hcnt⟩ := hb (inBd ep)
    simp only [agentStep, hostInStep]
    split_ifs with hcpu hstall hspace
    · exact nofun
    · exact nofun
    · exact nofun
    · omega
  | _ => exact nofun

/-- Settles O57: a stuck step is an agent's or the USB entry point's, and inside the bounds neither is. -/
theorem noStepIsStuck : Obligations.NoStepIsStuck := by
  intro s f hb ht h
  rcases step_fault_cases h with ⟨a, ha⟩ | hu
  · exact agentStep_ne_fault (s := consumed s) hb a f ha
  · obtain ⟨t, htr⟩ := drain_completes (consumed s).trnFifo (s := consumed s) hb
      (transferInv_congr (s := s) rfl rfl rfl rfl rfl rfl ht)
    exact absurd (htr.symm.trans hu) nofun

end Sys2Proof.Machine
end

section
/-! PROOFS. The invariants of the two OUT cycles: `EP0_OUT`, and Endpoint 1 with the configuration; and the steps that
change the address. -/

namespace Sys2Proof.Machine

open Sys2Proof

/-! ### The rules beside the USB entry point and the bus event -/

/-- Every other rule leaves `EP0_OUT`, the queue and the address as they are. -/
theorem runs_keeps {i : Instr} {s t : State} (h : Runs i s (.ok t)) :
    usbTransaction s = .ok t ∨ t = usbBusEvent s ∨
    (t.bdEp0Out = s.bdEp0Out ∧ t.trnFifo = s.trnFifo ∧ t.usbAddr = s.usbAddr) := by
  cases h with
  | usb hu => exact .inl hu
  | bus => exact .inr (.inl rfl)
  | idle => exact .inr (.inr ⟨rfl, rfl, rfl⟩)
  | request p hp => exact .inr (.inr (by simp [dispatchSetup_frame p hp]))
  | _ => exact .inr (.inr (by simp))

/-- A step of the CORE beside the two, in the same terms. -/
theorem step_keeps {s t : State} (h : step s = .next t) :
    (∃ a, agentStep a (consumed s) = .next t) ∨ usbTransaction (consumed s) = .ok t ∨ t = usbBusEvent (consumed s) ∨
    (t.bdEp0Out = s.bdEp0Out ∧ t.trnFifo = s.trnFifo ∧ t.usbAddr = s.usbAddr) := by
  rcases step_next_cases h with ha | rfl | ⟨i, -, hruns⟩
  · exact .inl ha
  · exact .inr (.inr (.inr ⟨rfl, rfl, rfl⟩))
  · exact .inr (runs_keeps hruns)

/-- R263 without a reset raised. -/
theorem usbBusEvent_of_noReset {s : State} (h : s.busResetIf = false) :
    usbBusEvent s = { s with busOtherIf := false } := by
  have hkept : (if s.busResetIf = true then busReset { s with busResetIf := false } else s) = s :=
    if_neg (by simp [h])
  rw [usbBusEvent, hkept]
  exact clearBusOther_eq s

/-! ### The address, R307 and R292 -/

/-- R292: a bus reset sets the address to 0. -/
theorem busReset_usbAddr (s : State) : (busReset s).usbAddr = 0 := by
  rw [busReset_eq]
  simp [armedEp0Out, transferCancelled]

/-- Of the completions only that of `EP0_IN` can change the address. -/
theorem route_usbAddr {ep : BitVec 4} {d : Dir} {s t : State} (h : route ep d s = .ok t)
    (hne : (ep, d) ≠ (0, .inn)) : t.usbAddr = s.usbAddr := by
  rcases route_inv h with ⟨-, -, -, h⟩ | ⟨-, -, -, h⟩ | ⟨rfl, rfl, -⟩ | ⟨-, -, rfl⟩ | ⟨-, -, rfl⟩ | ⟨-, -, rfl⟩
  · simp [onSetup_frame h]
  · simp [onEp0Out_frame h]
  · exact absurd rfl hne
  · simp
  · simp
  · rfl

/-- The whole entry point changes it only where an `EP0_IN` completion waits. -/
theorem usbTransaction_usbAddr {s t : State} (h : usbTransaction s = .ok t) :
    t.usbAddr = s.usbAddr ∨ (0, Dir.inn) ∈ s.trnFifo := by
  suffices hkept : (∃ handled, s.trnFifo = handled ++ t.trnFifo) ∧
      (t.usbAddr = s.usbAddr ∨ (0, Dir.inn) ∈ s.trnFifo) from hkept.2
  refine usbTransaction_keeps
    (I := fun u => (∃ handled, s.trnFifo = handled ++ u.trnFifo) ∧ (u.usbAddr = s.usbAddr ∨ (0, Dir.inn) ∈ s.trnFifo))
    (fun {u t e rest} hqueue hu hroute => ?_) ⟨⟨[], rfl⟩, .inl rfl⟩ h
  obtain ⟨⟨handled, hhandled⟩, haddr⟩ := hu
  have hrest : t.trnFifo = rest := by simp [route_frame _ _ hroute]
  have hall : s.trnFifo = handled ++ [e] ++ t.trnFifo := by rw [hhandled, hqueue, hrest]; simp
  refine ⟨⟨handled ++ [e], hall⟩, ?_⟩
  by_cases he : e = (0, .inn)
  · exact .inr (by rw [hall, he]; simp)
  · exact haddr.imp_left (route_usbAddr hroute he).trans

/-- No agent changes it. -/
theorem AgentMove.usbAddr_eq {s t : State} (h : AgentMove s t) : t.usbAddr = s.usbAddr := by
  cases h with
  | raises => rfl
  | _ => simp

/-- Settles O60. -/
theorem addressChangesAfterHandshake : Obligations.AddressChangesAfterHandshake := by
  intro s t hstep hne
  rcases step_keeps hstep with ⟨a, ha⟩ | hu | rfl | ⟨-, -, haddr⟩
  · exact absurd (agentStep_move ha).usbAddr_eq hne
  · exact .inl ((usbTransaction_usbAddr hu).resolve_left hne)
  · cases hreset : (consumed s).busResetIf with
    | true =>
      refine .inr ⟨hreset, ?_⟩
      rw [usbBusEvent_of_busResetIf hreset]
      exact busReset_usbAddr _
    | false => exact absurd (by rw [usbBusEvent_of_noReset hreset]; rfl) hne
  · exact absurd haddr hne

/-! ### `EP0_OUT`, R198 -/

/-- R36: after `Arm` a descriptor is the SIE's, whoever owned it before; a stall is not made. -/
theorem arm_own (e : BdId) (adr : Word16) (cnt : BitVec 10) (dts : Toggle) (s : State) :
    ((arm e adr cnt dts s).bd e).own = .sie ∧
    ((s.bd e).stall = false → ((arm e adr cnt dts s).bd e).stall = false) := by
  rw [arm_bd]
  split
  next => exact ⟨rfl, fun _ => rfl⟩
  next hown => exact ⟨owner_sie_of_ne_cpu fun hcpu => hown ⟨hcpu, rfl⟩, id⟩

/-- R198. -/
theorem armEp0Out_own (s : State) : (armEp0Out s).bdEp0Out.own = .sie ∧
    (s.bdEp0Out.stall = false → (armEp0Out s).bdEp0Out.stall = false) := arm_own .ep0Out _ _ _ s

/-- The invariant depends on the descriptor and the queue. -/
theorem ep0OutInv_congr {s t : State} (hbd : t.bdEp0Out = s.bdEp0Out) (hqueue : t.trnFifo = s.trnFifo)
    (h : Ep0OutInv s) : Ep0OutInv t :=
  ⟨by rw [hbd, hqueue]; exact h.armed, by rw [hbd]; exact h.unstalled⟩

/-- Where the rule of a completion does not end in `ArmEp0Out`, it leaves the descriptor. -/
theorem route_bdEp0Out {ep : BitVec 4} {d : Dir} {s t : State} (h : route ep d s = .ok t) :
    (∃ u, t = armEp0Out u ∧ u.bdEp0Out = s.bdEp0Out) ∨ ((ep, d) ≠ (0, .out) ∧ t.bdEp0Out = s.bdEp0Out) := by
  rcases route_inv h with ⟨-, -, -, h⟩ | ⟨-, -, -, h⟩ | ⟨-, rfl, hin⟩ | ⟨rfl, rfl, rfl⟩ | ⟨-, rfl, rfl⟩ | ⟨h0, -, rfl⟩
  · obtain ⟨u, rfl, hu⟩ := onSetup_inv h
    exact .inl ⟨u, rfl, by simp [dispatchSetup_frame _ hu]⟩
  · obtain ⟨u, rfl, ⟨-, hu⟩ | ⟨-, -, rfl⟩ | ⟨-, -, rfl⟩⟩ := handleEp0Out_inv h
    · exact .inl ⟨u, rfl, by simp [controlWriteData_frame _ hu]⟩
    · exact .inl ⟨_, rfl, by simp⟩
    · exact .inl ⟨_, rfl, by simp⟩
  · exact .inr ⟨by simp, by simp [onEp0In_frame hin]⟩
  · exact .inr ⟨by decide, by simp⟩
  · exact .inr ⟨by simp, by simp⟩
  · exact .inr ⟨fun he => h0 (Prod.mk.inj he).1, rfl⟩

/-- The rule of a completion arms `EP0_OUT` again if the completion was its own. -/
theorem route_ep0OutInv {s t : State} {e : BitVec 4 × Dir} {rest : List (BitVec 4 × Dir)}
    (hqueue : s.trnFifo = e :: rest) (hs : Ep0OutInv s) (h : route e.1 e.2 { s with trnFifo := rest } = .ok t) :
    Ep0OutInv t := by
  have hrest : t.trnFifo = rest := by simp [route_frame _ _ h]
  rcases route_bdEp0Out h with ⟨u, rfl, hu⟩ | ⟨hne, hbd⟩
  · exact ⟨.inl (armEp0Out_own u).1, (armEp0Out_own u).2 (hu ▸ hs.unstalled)⟩
  · refine ⟨?_, hbd ▸ hs.unstalled⟩
    rw [hbd, hrest]
    refine hs.armed.imp_right fun hmem => ?_
    rw [hqueue] at hmem
    exact (List.mem_cons.1 hmem).resolve_left (Ne.symm hne)

/-- R292 arms it afresh. -/
theorem busReset_ep0OutInv (s : State) : Ep0OutInv (busReset s) := by
  rw [busReset_eq]
  exact ⟨.inl rfl, rfl⟩

/-- The SIE's completion of it is queued; no other agent touches it. -/
theorem AgentMove.ep0OutInv {s t : State} (h : AgentMove s t) (hs : Ep0OutInv s) : Ep0OutInv t := by
  cases h with
  | shifter | sees => exact ep0OutInv_congr (by simp) (by simp) hs
  | raises => exact ep0OutInv_congr (s := s) rfl rfl hs
  | @takes ep bytes p hsie hlength hspace =>
    cases ep with
    | ep0 => exact ⟨.inr (List.mem_append_right _ (List.mem_singleton_self _)), hs.unstalled⟩
    | ep1 => exact ⟨hs.armed.imp_right (List.mem_append_left _), hs.unstalled⟩
  | @gives ep hsie =>
    have hbd : (completeIn ep s).bdEp0Out = s.bdEp0Out := by
      have h := completeIn_bd ep s .ep0Out
      cases ep <;> simpa [inBd, State.bd] using h
    have hqueue : (completeIn ep s).trnFifo = s.trnFifo ++ [(epNumber ep, .inn)] := by simp [completeIn]
    refine ⟨?_, hbd ▸ hs.unstalled⟩
    rw [hbd, hqueue]
    exact hs.armed.imp_right (List.mem_append_left _)

/-- Settles O52: the completions of the queue keep it one by one. -/
theorem stepKeepsEp0Out : Obligations.StepKeepsEp0Out := by
  intro s t hs hstep
  have hconsumed : Ep0OutInv (consumed s) := ep0OutInv_congr (s := s) rfl rfl hs
  rcases step_keeps hstep with ⟨a, ha⟩ | hu | rfl | ⟨hbd, hqueue, -⟩
  · exact (agentStep_move ha).ep0OutInv hconsumed
  · exact usbTransaction_keeps route_ep0OutInv hconsumed hu
  · cases hreset : (consumed s).busResetIf with
    | true =>
      rw [usbBusEvent_of_busResetIf hreset]
      exact ep0OutInv_congr (s := busReset { consumed s with busResetIf := false }) rfl rfl (busReset_ep0OutInv _)
    | false =>
      rw [usbBusEvent_of_noReset hreset]
      exact ep0OutInv_congr (s := s) rfl rfl hs
  · exact ep0OutInv_congr hbd hqueue hs

end Sys2Proof.Machine
end

section
/-! PROOFS. Endpoint 1 and the configuration: what R33, R220, R221 and R235 derive is kept by every step but the two
`CALL`s that switch the endpoint on their own. -/

namespace Sys2Proof.Machine

open Sys2Proof

/-! ### What touches Endpoint 1 -/

/-- `EP1_IN` as it was, or armed by an enabled endpoint. -/
def ReportKept (s t : State) : Prop :=
  t.bdEp1In = s.bdEp1In ∨ (s.ep1Enabled = true ∧ t.bdEp1In.stall = false)

/-- The fields of the invariant beside `EP1_IN`, unchanged. -/
structure SwitchKept (s t : State) : Prop where
  configured_eq : t.configured = s.configured
  enabled_eq : t.ep1Enabled = s.ep1Enabled
  out_eq : t.bdEp1Out = s.bdEp1Out
  queue_eq : t.trnFifo = s.trnFifo

/-- With the rest unchanged, a report armed by an enabled endpoint keeps the invariant. -/
theorem SwitchKept.endpoint1Inv {s t : State} (h : SwitchKept s t) (hin : ReportKept s t) (hs : Endpoint1Inv s) :
    Endpoint1Inv t where
  configured_eq := by rw [h.configured_eq, h.enabled_eq]; exact hs.configured_eq
  disabled hdis := by
    have hoff : s.ep1Enabled = false := h.enabled_eq ▸ hdis
    have hkept : t.bdEp1In = s.bdEp1In := hin.resolve_right fun hon => by simp [hoff] at hon
    rw [h.out_eq, hkept]
    exact hs.disabled hoff
  enabled hen := by
    rw [h.out_eq, h.queue_eq]
    exact hs.enabled (h.enabled_eq ▸ hen)
  unstalled := by
    refine ⟨h.out_eq ▸ hs.unstalled.1, ?_⟩
    rcases hin with hkept | ⟨-, hstall⟩
    · exact hkept ▸ hs.unstalled.2
    · exact hstall

/-- R227: only an enabled endpoint arms a report. -/
theorem notifyNewValues_report (s : State) : ReportKept s (notifyNewValues s) := by
  unfold notifyNewValues
  split_ifs with hdis hown
  · exact .inl rfl
  · exact .inl rfl
  · refine .inr ⟨by simpa using hdis, ?_⟩
    have harmed := arm_bd .ep1In .ep1In s.cfg.addrEp1In (BitVec.ofNat 10 pReportLen) s.ep1InDts
      (coreWrite s.cfg.addrEp1In.toNat (encodeReport (wireValue s.value0) (wireValue s.value1)) s)
    have hcpu : s.bdEp1In.own = .cpu := by cases hb : s.bdEp1In.own; rfl; exact absurd hb hown
    simp only [State.bd, coreWrite_frame, hcpu, and_self, ↓reduceIte] at harmed
    rw [armReport, harmed]

/-- R153: the key read notifies at most once. -/
theorem keyReadDone_report (s : State) : ReportKept s (keyReadDone s) := by
  rw [keyReadDone_eq]
  split
  · simpa [ReportKept, keyByteRead, swapValues] using
      notifyNewValues_report (displayValues (keyByteRead s).value1 (keyByteRead s).value0 (keyByteRead s))
  · exact .inl (by simp [keyByteRead])

/-- R122. -/
theorem invokeCallback_report (cb : Callback) (s : State) : ReportKept s (invokeCallback cb s) := by
  cases cb with
  | none => exact .inl rfl
  | initDone => exact .inl (by simp)
  | keyReadDone => exact keyReadDone_report s

/-- R121 and its callback. -/
theorem spiByteComplete_report (s : State) : ReportKept s (spiByteComplete s) := by
  have hbyte : (byteHandled s).bdEp1In = s.bdEp1In ∧ (byteHandled s).ep1Enabled = s.ep1Enabled := by
    refine ⟨by simp, ?_⟩
    rcases byteHandled_cases s with ⟨-, h⟩ | ⟨-, -, h⟩ | ⟨-, -, h⟩ <;> rw [h] <;> simp [slotFreed]
  have h := invokeCallback_report (byteCallback s) (byteHandled s)
  rw [ReportKept, hbyte.1, hbyte.2] at h
  rw [spiByteComplete_eq]
  exact h

/-! ### The switch, R228 and R229 -/

/-- A reclaimed descriptor of Endpoint 1 is the CPU's and stays unstalled. -/
theorem reclaimed_idle {b : BufferDescriptor} (h : b.stall = false) :
    (if b.own = .sie then reclaimed b else b).own = .cpu ∧ (if b.own = .sie then reclaimed b else b).stall = false := by
  cases hown : b.own <;> simp [hown, h, reclaimed]

/-- R229: after it both descriptors are the CPU's. -/
theorem ep1Disable_endpoint1Inv {s : State} (h : s.bdEp1Out.stall = false ∧ s.bdEp1In.stall = false) :
    Endpoint1Inv { ep1Disable s with configured := false } := by
  rw [ep1Disable_eq]
  have hout := reclaimed_idle h.1
  have hin := reclaimed_idle h.2
  exact ⟨rfl, fun _ => ⟨hout.1, hin.1⟩, nofun, ⟨hout.2, hin.2⟩⟩

/-- R228: from a disabled endpoint it leaves `EP1_OUT` armed. -/
theorem ep1Enable_endpoint1Inv {s : State} (hdis : s.ep1Enabled = false) (hs : Endpoint1Inv s) :
    Endpoint1Inv { ep1Enable s with configured := true } := by
  rw [ep1Enable_eq (hs.disabled hdis).1]
  refine ⟨?_, fun hoff => ?_, fun _ => .inl ?_, ?_⟩
  · simp [ep1EnabledState]
  · simp [ep1EnabledState] at hoff
  · simp [ep1EnabledState, armedEp1Out]
  · simpa [ep1EnabledState, armedEp1Out] using hs.unstalled.2

/-- R179 touches nothing of Endpoint 1. -/
theorem statusIn_endpoint1Inv {s : State} (hs : Endpoint1Inv s) : Endpoint1Inv (statusIn s) :=
  SwitchKept.endpoint1Inv (s := s) ⟨by simp, by simp, by simp, by simp⟩ (.inl (by simp)) hs

/-- R187: the request switches the endpoint with the configuration. -/
theorem setConfigurationRequest_endpoint1Inv (cv : Byte) {s : State} (hs : Endpoint1Inv s) :
    Endpoint1Inv (setConfigurationRequest cv s) := by
  unfold setConfigurationRequest
  split_ifs with h0 hconf hcv hconf
  · exact statusIn_endpoint1Inv (ep1Disable_endpoint1Inv hs.unstalled)
  · exact statusIn_endpoint1Inv hs
  · exact statusIn_endpoint1Inv (ep1Enable_endpoint1Inv (hs.configured_eq ▸ hconf) hs)
  · exact statusIn_endpoint1Inv hs
  · exact SwitchKept.endpoint1Inv (s := s) ⟨by simp, by simp, by simp, by simp⟩ (.inl (by simp)) hs

/-! ### The requests and the completions -/

/-- A setup packet is a SetConfiguration, or touches nothing of Endpoint 1. -/
theorem dispatchSetup_endpointOne {p : SetupPacket} {s t : State} (h : dispatchSetup p s = .ok t) :
    (∃ cv, t = setConfigurationRequest cv s) ∨ (SwitchKept s t ∧ t.bdEp1In = s.bdEp1In) := by
  simp only [dispatchSetup, stdDevice, stdInterface, stdEndpoint, classInterface, getDescriptorOnDevice,
    getDescDevice, getDescConfig, getDescString, getDescReport] at h
  split_ifs at h
  all_goals first
    | (have hf := startControlRead_frame _ _ h
       exact .inr ⟨⟨by simp [hf], by simp [hf], by simp [hf], by simp [hf]⟩, by simp [hf]⟩)
    | exact .inl ⟨_, (Except.ok.inj h).symm⟩
    | (obtain rfl := Except.ok.inj h
       exact .inr ⟨⟨by simp, by simp, by simp, by simp⟩, by simp⟩)

theorem dispatchSetup_endpoint1Inv {p : SetupPacket} {s t : State} (h : dispatchSetup p s = .ok t)
    (hs : Endpoint1Inv s) : Endpoint1Inv t := by
  rcases dispatchSetup_endpointOne h with ⟨cv, rfl⟩ | ⟨hkept, hin⟩
  · exact setConfigurationRequest_endpoint1Inv cv hs
  · exact hkept.endpoint1Inv (.inl hin) hs

/-- R172. -/
theorem onSetup_endpoint1Inv {s t : State} (h : onSetup s = .ok t) (hs : Endpoint1Inv s) : Endpoint1Inv t := by
  obtain ⟨u, rfl, hu⟩ := onSetup_inv h
  have hcancelled : Endpoint1Inv (cancelTransfer (afterCoreRead s.cfg.addrEp0Out.toNat 8 s)) :=
    SwitchKept.endpoint1Inv (s := s) ⟨by simp, by simp, by simp, by simp⟩ (.inl (by simp)) hs
  exact SwitchKept.endpoint1Inv (s := u) ⟨by simp, by simp, by simp, by simp⟩ (.inl (by simp))
    (dispatchSetup_endpoint1Inv hu hcancelled)

/-- R226 of an enabled endpoint ends in the arm. -/
theorem onEp1Out_rearms {s : State} (hen : s.ep1Enabled = true) :
    ∃ u, onEp1Out s = rearmEp1Out u ∧ u.bdEp1Out = s.bdEp1Out :=
  ⟨_, if_neg (by simp [hen]), by simp⟩

/-- R226, R231: an enabled endpoint arms `EP1_OUT` again; a disabled one only consumes the completion. -/
theorem onEp1Out_endpoint1Inv {s : State} (rest : List (BitVec 4 × Dir)) (hs : Endpoint1Inv s) :
    Endpoint1Inv (onEp1Out { s with trnFifo := rest }) := by
  by_cases hen : s.ep1Enabled = true
  · obtain ⟨u, hu, hout⟩ := onEp1Out_rearms (s := { s with trnFifo := rest }) hen
    have harmed := arm_own .ep1Out u.cfg.addrEp1Out (BitVec.ofNat 10 pReportLen) (u.ep1OutDts ^^^ 1)
      { u with ep1OutDts := u.ep1OutDts ^^^ 1 }
    refine ⟨by simpa using hs.configured_eq, fun hoff => ?_, fun _ => .inl ?_, ?_, by simpa using hs.unstalled.2⟩
    · simp [hen] at hoff
    · rw [hu]
      exact harmed.1
    · rw [hu]
      exact harmed.2 (hout ▸ hs.unstalled.1)
  · have hoff : onEp1Out { s with trnFifo := rest } = { s with trnFifo := rest } := if_pos (by simpa using hen)
    rw [hoff]
    exact ⟨hs.configured_eq, hs.disabled, fun h => absurd h hen, hs.unstalled⟩

/-- The rule of a completion keeps the invariant with the completion consumed. -/
theorem route_endpoint1Inv {s t : State} {e : BitVec 4 × Dir} {rest : List (BitVec 4 × Dir)}
    (hqueue : s.trnFifo = e :: rest) (hs : Endpoint1Inv s) (h : route e.1 e.2 { s with trnFifo := rest } = .ok t) :
    Endpoint1Inv t := by
  have hrest (hne : e ≠ (1, .out)) : Endpoint1Inv { s with trnFifo := rest } := by
    refine ⟨hs.configured_eq, hs.disabled, fun hen => (hs.enabled hen).imp_right fun hmem => ?_, hs.unstalled⟩
    rw [hqueue] at hmem
    exact (List.mem_cons.1 hmem).resolve_left (Ne.symm hne)
  obtain ⟨ep, d⟩ := e
  rcases route_inv h with ⟨rfl, -, -, h⟩ | ⟨rfl, -, -, h⟩ | ⟨rfl, -, h⟩ | ⟨rfl, rfl, rfl⟩ | ⟨-, rfl, rfl⟩ | ⟨-, h1, rfl⟩
  · refine onSetup_endpoint1Inv h (SwitchKept.endpoint1Inv (s := { s with trnFifo := rest }) ?_ ?_ (hrest (by simp)))
    · exact ⟨by simp, by simp, by simp, by simp⟩
    · exact .inl (by simp)
  · have hf := onEp0Out_frame h
    refine SwitchKept.endpoint1Inv (s := { s with trnFifo := rest }) ?_ ?_ (hrest (by simp))
    · exact ⟨by simp [hf], by simp [hf], by simp [hf], by simp [hf]⟩
    · exact .inl (by simp [hf])
  · have hf := onEp0In_frame h
    refine SwitchKept.endpoint1Inv (s := { s with trnFifo := rest }) ?_ ?_ (hrest (by simp))
    · exact ⟨by simp [hf], by simp [hf], by simp [hf], by simp [hf]⟩
    · exact .inl (by simp [hf])
  · exact onEp1Out_endpoint1Inv rest hs
  · refine SwitchKept.endpoint1Inv (s := { s with trnFifo := rest }) ?_ ?_ (hrest (by simp))
    · exact ⟨by simp, by simp, by simp, by simp⟩
    · exact .inl (by simp)
  · exact hrest fun he => h1 (Prod.mk.inj he).1

/-- R292 disables the endpoint of a configured device; of another it is disabled already. -/
theorem busReset_endpoint1Inv {s : State} (hs : Endpoint1Inv s) : Endpoint1Inv (busReset s) := by
  have hdeconfigured : Endpoint1Inv (deconfigured s) := by
    cases hconf : s.configured with
    | true =>
      rw [deconfigured_of_configured hconf]
      exact ep1Disable_endpoint1Inv hs.unstalled
    | false =>
      have hdis : s.ep1Enabled = false := hs.configured_eq ▸ hconf
      rw [deconfigured_of_unconfigured hconf]
      exact ⟨hs.configured_eq, hs.disabled, fun hen => absurd (hdis.symm.trans hen) nofun, hs.unstalled⟩
  rw [busReset_eq]
  exact SwitchKept.endpoint1Inv (s := deconfigured s) ⟨rfl, rfl, rfl, rfl⟩ (.inl rfl) hdeconfigured

/-- The SIE hands the descriptors back and queues the completion; no other agent touches Endpoint 1. -/
theorem AgentMove.endpoint1Inv {s t : State} (h : AgentMove s t) (hs : Endpoint1Inv s) : Endpoint1Inv t := by
  cases h with
  | shifter | sees =>
    exact SwitchKept.endpoint1Inv (s := s) ⟨by simp, by simp, by simp, by simp⟩ (.inl (by simp)) hs
  | raises => exact SwitchKept.endpoint1Inv (s := s) ⟨rfl, rfl, rfl, rfl⟩ (.inl rfl) hs
  | @takes ep bytes p hsie hlength hspace =>
    cases ep with
    | ep0 => exact ⟨hs.configured_eq, hs.disabled, fun hen => (hs.enabled hen).imp_right (List.mem_append_left _),
        hs.unstalled⟩
    | ep1 => exact ⟨hs.configured_eq, fun hdis => ⟨rfl, (hs.disabled hdis).2⟩,
        fun _ => .inr (List.mem_append_right _ (List.mem_singleton_self _)), hs.unstalled⟩
  | @gives ep hsie =>
    have hqueue : (completeIn ep s).trnFifo = s.trnFifo ++ [(epNumber ep, .inn)] := by simp [completeIn]
    have hout : (completeIn ep s).bdEp1Out = s.bdEp1Out := by
      have h := completeIn_bd ep s .ep1Out
      cases ep <;> simpa [inBd, State.bd] using h
    have hin : (completeIn ep s).bdEp1In.stall = s.bdEp1In.stall ∧
        (s.bdEp1In.own = .cpu → (completeIn ep s).bdEp1In.own = .cpu) := by
      have h := completeIn_bd ep s .ep1In
      cases ep <;> simp only [inBd, State.bd, reduceCtorEq, ↓reduceIte] at h <;> simp [h]
    refine ⟨by simpa using hs.configured_eq, fun hdis => ?_, fun hen => ?_, by rw [hout, hin.1]; exact hs.unstalled⟩
    · have hoff := hs.disabled (by simpa using hdis)
      exact ⟨hout ▸ hoff.1, hin.2 hoff.2⟩
    · rw [hout, hqueue]
      exact (hs.enabled (by simpa using hen)).imp_right (List.mem_append_left _)

/-- Every rule but the two `CALL`s keeps the invariant. -/
theorem runs_endpoint1Inv {i : Instr} {s t : State} (henable : i ≠ .callEp1Enable) (hdisable : i ≠ .callEp1Disable)
    (h : Runs i s (.ok t)) (hs : Endpoint1Inv s) : Endpoint1Inv t := by
  cases h with
  | idle => exact hs
  | usb hu => exact usbTransaction_keeps route_endpoint1Inv hs hu
  | bus =>
    cases hreset : s.busResetIf with
    | true =>
      rw [usbBusEvent_of_busResetIf hreset]
      have hcleared : Endpoint1Inv { s with busResetIf := false } :=
        SwitchKept.endpoint1Inv (s := s) ⟨rfl, rfl, rfl, rfl⟩ (.inl rfl) hs
      exact SwitchKept.endpoint1Inv (s := busReset { s with busResetIf := false }) ⟨rfl, rfl, rfl, rfl⟩ (.inl rfl)
        (busReset_endpoint1Inv hcleared)
    | false =>
      rw [usbBusEvent_of_noReset hreset]
      exact SwitchKept.endpoint1Inv (s := s) ⟨rfl, rfl, rfl, rfl⟩ (.inl rfl) hs
  | enable hi => exact absurd hi henable
  | disable hi => exact absurd hi hdisable
  | request p hp => exact dispatchSetup_endpoint1Inv hp hs
  | byteComplete =>
    exact SwitchKept.endpoint1Inv (s := s) ⟨by simp, by simp, by simp, by simp⟩ (spiByteComplete_report s) hs
  | callback cb =>
    exact SwitchKept.endpoint1Inv (s := s) ⟨by simp, by simp, by simp, by simp⟩ (invokeCallback_report cb s) hs
  | notify =>
    exact SwitchKept.endpoint1Inv (s := s) ⟨by simp, by simp, by simp, by simp⟩ (notifyNewValues_report s) hs
  | _ => exact SwitchKept.endpoint1Inv (s := s) ⟨by simp, by simp, by simp, by simp⟩ (.inl (by simp)) hs

/-- Settles O53: the two `CALL`s come from packets only. -/
theorem stepKeepsEndpointOne : Obligations.StepKeepsEndpointOne := by
  intro s t henable hdisable hs hstep
  have hconsumed : Endpoint1Inv (consumed s) :=
    SwitchKept.endpoint1Inv (s := s) ⟨rfl, rfl, rfl, rfl⟩ (.inl rfl) hs
  rcases step_next_cases hstep with ⟨a, ha⟩ | rfl | ⟨i, hi, hruns⟩
  · exact (agentStep_move ha).endpoint1Inv hconsumed
  · exact hconsumed
  · refine runs_endpoint1Inv ?_ ?_ hruns hconsumed
    · rintro rfl
      exact hi.elim (fun hd => absurd (nextEvent_dispatched hd) nofun) henable
    · rintro rfl
      exact hi.elim (fun hd => absurd (nextEvent_dispatched hd) nofun) hdisable

end Sys2Proof.Machine
end

section
/-! PROOFS. The five formats of `spec/30_encoding.md`: what the decoder reads from the words of a well-formed
instruction, format by format; and the operand byte that two packets of a callback share. -/

namespace Sys2Proof.Machine

open Sys2Proof

/-! ### Event words, R81 and R97 -/

/-- A word past the exact ones, by its fields. -/
theorem decodeEvt_evtWord {src : BitVec 3} {ep : BitVec 4} {dir : BitVec 1} {kind : BitVec 4}
    (h : evtWord src ep dir kind ∉ entryWords) : decodeEvt (evtWord src ep dir kind) =
      if src = 2 ∧ ep = 0 then .evUsbBadKind 0 dir kind
      else if src = 2 ∧ ep = 1 then .evUsbBadKind 1 dir kind
      else if src = 2 then .evUsbUnknownEp ep dir kind
      else .evRefused src ep dir kind := by
  obtain ⟨hsrc, hep, hdir, hkind⟩ := evtWord_fields src ep dir kind
  rw [decodeEvt_of_notMem h, hsrc, hep, hdir, hkind]

/-- The endpoint of a bad kind is 0 or 1. -/
theorem badKindEndpoint_cases (ep : BitVec 1) : (ep = 0 ∧ 0#3 ++ ep = 0#4) ∨ (ep = 1 ∧ 0#3 ++ ep = 1#4) := by
  revert ep; decide

/-- R97: a pair the SIE cannot produce makes none of the exact words, and only such a pair. -/
theorem badKindOk_iff (ep : BitVec 1) (dir : BitVec 1) (kind : BitVec 4) :
    badKindOk ep dir kind = true ↔ evtWord 2 (0#3 ++ ep) dir kind ∉ entryWords := by
  have hdir : dir = 0 ∨ dir = 1 := by revert dir; decide
  rw [entryWords_eq]
  simp only [List.mem_cons, List.not_mem_nil, or_false, evtWord_inj, kindOut, kindIn, kindSetup, badKindOk]
  obtain ⟨rfl, -⟩ | ⟨rfl, -⟩ := badKindEndpoint_cases ep <;> obtain rfl | rfl := hdir <;> simp [and_comm]

/-- R81: a bad kind decodes to its row. -/
theorem decodeEvt_badKind {ep : BitVec 1} {dir : BitVec 1} {kind : BitVec 4} (h : badKindOk ep dir kind = true) :
    decodeEvt (evtWord 2 (0#3 ++ ep) dir kind) = .evUsbBadKind ep dir kind := by
  rw [decodeEvt_evtWord ((badKindOk_iff ep dir kind).1 h)]
  obtain ⟨rfl, hep⟩ | ⟨rfl, hep⟩ := badKindEndpoint_cases ep <;> simp [hep]

/-- R81: so does an unknown endpoint: it makes none of the exact words. -/
theorem decodeEvt_unknownEp {ep : BitVec 4} (h0 : ep ≠ 0#4) (h1 : ep ≠ 1#4) (dir : BitVec 1) (kind : BitVec 4) :
    decodeEvt (evtWord 2 ep dir kind) = .evUsbUnknownEp ep dir kind := by
  have hexact : evtWord 2 ep dir kind ∉ entryWords := by
    rw [entryWords_eq]
    simp [evtWord_inj, h0, h1]
  rw [decodeEvt_evtWord hexact]
  simp [h0, h1]

/-- The eight sources. -/
theorem source_cases (src : BitVec 3) :
    src = 0 ∨ src = 1 ∨ src = 2 ∨ src = 3 ∨ src = 4 ∨ src = 5 ∨ src = 6 ∨ src = 7 := by
  revert src; decide

/-- R97: a reserved source or field is not of the USB source and makes none of the exact words. -/
theorem refusedOk_notMem {src : BitVec 3} {ep : BitVec 4} {dir : BitVec 1} {kind : BitVec 4}
    (h : refusedOk src ep dir kind = true) : src ≠ 2 ∧ evtWord src ep dir kind ∉ entryWords := by
  revert h
  rw [entryWords_eq]
  simp only [List.mem_cons, List.not_mem_nil, or_false, evtWord_inj, refusedOk]
  obtain rfl | rfl | rfl | rfl | rfl | rfl | rfl | rfl := source_cases src <;> simp <;> tauto

/-- R81: a refused word decodes to its row. -/
theorem decodeEvt_refused {src : BitVec 3} {ep : BitVec 4} {dir : BitVec 1} {kind : BitVec 4}
    (h : refusedOk src ep dir kind = true) : decodeEvt (evtWord src ep dir kind) = .evRefused src ep dir kind := by
  obtain ⟨hsrc, hexact⟩ := refusedOk_notMem h
  rw [decodeEvt_evtWord hexact]
  simp [show src ≠ 2#3 from hsrc]

/-! ### Calls, R82 -/

/-- The two fields of a call word. -/
theorem callWord_fields (id : Byte) (ops : BitVec 48) :
    (callWord id ops).extractLsb' 0 8 = id ∧ (callWord id ops).extractLsb' 8 48 = ops :=
  ⟨BitVec.extractLsb'_append_eq_right, BitVec.extractLsb'_append_eq_left⟩

/-- The operands of StartExchange. -/
theorem exchangeOperands_fields (cb len : Byte) (buf : Word16) :
    (0#16 ++ cb ++ len ++ buf).extractLsb' 32 16 = 0#16 ∧ (0#16 ++ cb ++ len ++ buf).extractLsb' 24 8 = cb ∧
    (0#16 ++ cb ++ len ++ buf).extractLsb' 16 8 = len ∧ (0#16 ++ cb ++ len ++ buf).extractLsb' 0 16 = buf := by
  simp (disch := decide) only [BitVec.extractLsb'_append_eq_of_le]
  exact ⟨BitVec.extractLsb'_eq_self, BitVec.extractLsb'_append_eq_right, BitVec.extractLsb'_append_eq_right,
    BitVec.extractLsb'_append_eq_right⟩

/-- One operand byte below the bits that stay 0. -/
theorem byteOperand_fields (b : Byte) :
    (0#40 ++ b).extractLsb' 8 40 = 0#40 ∧ (0#40 ++ b).extractLsb' 0 8 = b :=
  ⟨BitVec.extractLsb'_append_eq_left, BitVec.extractLsb'_append_eq_right⟩

/-- The two values of DisplayValues. -/
theorem valueOperands_fields (v0 v1 : StoredValue) :
    (v1 ++ v0).extractLsb' 0 pStoreBits = v0 ∧ (v1 ++ v0).extractLsb' pStoreBits pStoreBits = v1 :=
  ⟨BitVec.extractLsb'_append_eq_right, BitVec.extractLsb'_append_eq_left⟩

theorem decodeCall_startExchange (buf : Word16) (len : Byte) (cb : Callback) :
    decodeCall (callWord 0x01 (0#16 ++ cb.toByte ++ len ++ buf)) = .ok (.callStartExchange buf len cb) := by
  obtain ⟨hid, hops⟩ := callWord_fields 0x01 (0#16 ++ cb.toByte ++ len ++ buf)
  obtain ⟨hstray, hcb, hlen, hbuf⟩ := exchangeOperands_fields cb.toByte len buf
  unfold decodeCall
  rw [hid, hops]
  dsimp only
  rw [hcb, hlen, hbuf, hstray]
  cases cb <;> rfl

theorem decodeCall_invokeCallback (cb : Callback) :
    decodeCall (callWord 0x02 (0#40 ++ cb.toByte)) = .ok (.callInvokeCallback cb) := by cases cb <;> rfl

theorem decodeCall_fatal (x : FatalCause) :
    decodeCall (callWord 0x30 (0#40 ++ x.toByte)) = .ok (.callFatal x) := by cases x <;> rfl

theorem decodeCall_modelFault (x : ModelCause) :
    decodeCall (callWord 0x31 (0#40 ++ x.toByte)) = .ok (.callModelFault x) := by cases x <;> rfl

theorem decodeCall_displayValues (v0 v1 : StoredValue) :
    decodeCall (callWord 0x13 (v1 ++ v0)) = .ok (.callDisplayValues v0 v1) := by
  obtain ⟨hid, hops⟩ := callWord_fields 0x13 (v1 ++ v0)
  obtain ⟨h0, h1⟩ := valueOperands_fields v0 v1
  unfold decodeCall
  rw [hid, hops]
  dsimp only
  rw [h0, h1]
  rfl

/-! ### Frames, R83 and R94 -/

/-- The fields of a write frame. -/
theorem writeFrame_fields (reg : BitVec 7) (data : Byte) : (writeFrame reg data).extractLsb' 15 1 = 0 ∧
    (writeFrame reg data).extractLsb' 8 7 = reg ∧ (writeFrame reg data).extractLsb' 0 8 = data := by
  have hhigh {start len : Nat} (h : 8 ≤ start) :
      (writeFrame reg data).extractLsb' start len = (0#1 ++ reg).extractLsb' (start - 8) len :=
    BitVec.extractLsb'_append_eq_of_le (xhi := 0#1 ++ reg) (xlo := data) h
  exact ⟨(hhigh (by decide)).trans BitVec.extractLsb'_append_eq_left,
    (hhigh (by decide)).trans BitVec.extractLsb'_append_eq_right, BitVec.extractLsb'_append_eq_right⟩

/-- A write frame is determined by its register and its data byte. -/
theorem writeFrame_inj {reg reg' : BitVec 7} {data data' : Byte} :
    writeFrame reg data = writeFrame reg' data' ↔ reg = reg' ∧ data = data' := by
  refine ⟨fun h => ?_, fun ⟨hreg, hdata⟩ => hreg ▸ hdata ▸ rfl⟩
  obtain ⟨-, hreg, hdata⟩ := writeFrame_fields reg data
  obtain ⟨-, hreg', hdata'⟩ := writeFrame_fields reg' data'
  rw [h] at hreg hdata
  exact ⟨hreg.symm.trans hreg', hdata.symm.trans hdata'⟩

/-- The high bit tells a read frame. -/
theorem readFrame_high (reg : BitVec 7) : (readFrame reg).extractLsb' 15 1 = 1 :=
  (BitVec.extractLsb'_append_eq_of_le (xhi := 1#1 ++ reg) (xlo := 0#8) (start := 15) (by decide)).trans
    BitVec.extractLsb'_append_eq_left

theorem readFrame_ne_writeFrame (reg reg' : BitVec 7) (data : Byte) : readFrame reg ≠ writeFrame reg' data := by
  intro h
  have hhigh := readFrame_high reg
  rw [h, (writeFrame_fields reg' data).1] at hhigh
  exact absurd hhigh (by decide)

/-- The registers of the write frames, the six of R94 first. -/
def frameRegisters (c : Config) : List (BitVec 7) :=
  [c.regScanLimit, c.regIntensity, c.regDecode, c.regConfig, c.regPortConfig, c.regKeyMask]

/-- What distinct frames are (log 10). -/
theorem framesDistinct_iff (c : Config) : c.framesDistinct = true ↔
    (frameRegisters c ++ c.digitReg.toList).Nodup ∧ c.initConfig ≠ c.termConfig := by
  simp [Config.framesDistinct, allDistinct, frameRegisters]

/-- The place of a digit in the table of registers is its own. -/
theorem digitIndex_inj {d d' : DisplayId} {i i' : DigitId} (h : pDigits * d.val + i.val = pDigits * d'.val + i'.val) :
    (d, i) = (d', i') := by
  have := digitId_lt i
  have := digitId_lt i'
  simp only [pDigits] at h
  exact Prod.ext (Fin.ext (by simp only; omega)) (Fin.ext (by simp only; omega))

/-- With distinct registers a digit's register finds that digit. -/
theorem digitOf?_digitRegister {c : Config} (h : c.digitReg.toList.Nodup) (d : DisplayId) (i : DigitId) :
    digitOf? c (c.digitRegister d i) = some (d, i) := by
  have hsome : (digitOf? c (c.digitRegister d i)).isSome = true := by
    rw [digitOf?, List.find?_isSome]
    exact ⟨(d, i), by revert d i; decide, beq_self_eq_true _⟩
  obtain ⟨p, hp⟩ := Option.isSome_iff_exists.1 hsome
  have hreg : c.digitRegister p.1 p.2 = c.digitRegister d i := beq_iff_eq.1
    (List.find?_some (p := fun q : DisplayId × DigitId => c.digitRegister q.1 q.2 == c.digitRegister d i) hp)
  have hplace := (h.getElem_inj_iff (hi := by simpa using Config.digitIndex_lt p.1 p.2)
    (hj := by simpa using Config.digitIndex_lt d i)).1 (by simpa [Config.digitRegister] using hreg)
  exact hp.trans (congrArg some (digitIndex_inj hplace))

/-- A frame that decodes by the digit registers: no other write frame has one of them. -/
theorem decodeFrame_digit {c : Config} (hdistinct : c.framesDistinct = true) (d : DisplayId) (i : DigitId) (data : Byte) :
    decodeFrame c (writeFrame (c.digitRegister d i) data) = .ok (.wrDigit d i data) := by
  obtain ⟨hnodup, -⟩ := (framesDistinct_iff c).1 hdistinct
  obtain ⟨-, hdigits, hapart⟩ := List.nodup_append.1 hnodup
  have hmem : c.digitRegister d i ∈ c.digitReg.toList := by simp [Config.digitRegister]
  have hne (reg : BitVec 7) (hreg : reg ∈ frameRegisters c) : c.digitRegister d i ≠ reg :=
    (hapart reg hreg _ hmem).symm
  simp only [frameRegisters, List.forall_mem_cons] at hne
  obtain ⟨h0, h1, h2, h3, h4, h5, -⟩ := hne
  obtain ⟨hhigh, hreg, hdata⟩ := writeFrame_fields (c.digitRegister d i) data
  simp only [decodeFrame, writeFrame_inj, h0, h1, h2, h3, h4, h5, false_and, ↓reduceIte, hhigh, hreg, hdata,
    digitOf?_digitRegister hdigits]

/-- Every frame of R94 under distinct frames. -/
theorem decodeFrame_fixed {c : Config} (hdistinct : c.framesDistinct = true) :
    decodeFrame c (writeFrame c.regScanLimit c.initScanLimit) = .ok .wrScanLimit ∧
    decodeFrame c (writeFrame c.regIntensity c.initIntensity) = .ok .wrIntensity ∧
    decodeFrame c (writeFrame c.regDecode c.initDecode) = .ok .wrDecode ∧
    decodeFrame c (writeFrame c.regConfig c.initConfig) = .ok .wrConfigNormal ∧
    decodeFrame c (writeFrame c.regPortConfig c.initPortConfig) = .ok .wrPortConfig ∧
    decodeFrame c (writeFrame c.regConfig c.termConfig) = .ok .wrConfigShutdown ∧
    decodeFrame c (writeFrame c.regKeyMask c.termKeyMask) = .ok .wrKeyMaskOff := by
  obtain ⟨hnodup, hconfig⟩ := (framesDistinct_iff c).1 hdistinct
  have hregs := (List.nodup_append.1 hnodup).1
  simp only [frameRegisters, List.nodup_cons, List.mem_cons, List.not_mem_nil, or_false, not_or] at hregs
  obtain ⟨⟨h01, h02, h03, h04, h05⟩, ⟨h12, h13, h14, h15⟩, ⟨h23, h24, h25⟩, ⟨h34, h35⟩, h45, -⟩ := hregs
  simp [decodeFrame, writeFrame_inj, Ne.symm h01, Ne.symm h02, Ne.symm h03, Ne.symm h04, Ne.symm h05, Ne.symm h12,
    Ne.symm h13, Ne.symm h14, Ne.symm h15, Ne.symm h23, Ne.symm h24, Ne.symm h25, Ne.symm h34, Ne.symm h35,
    Ne.symm h45, h34, Ne.symm hconfig]

/-- The read frame under any configuration. -/
theorem decodeFrame_read (c : Config) : decodeFrame c (readFrame c.regKeyDebounced) = .ok .rdKeyDebounced := by
  have hhigh : (readFrame c.regKeyDebounced).extractLsb' 15 1 ≠ 0 := by
    rw [readFrame_high]
    decide
  simp only [decodeFrame, readFrame_ne_writeFrame, hhigh, ↓reduceIte]

/-! ### Setup packets, R86 to R93 -/

/-- R86, R93: the fields of the packet's number. -/
theorem ofWord_word (p : SetupPacket) : SetupPacket.ofWord p.word = p := by
  obtain ⟨bm, br, v, idx, len⟩ := p
  simp only [SetupPacket.ofWord, SetupPacket.word, SetupPacket.mk.injEq]
  simp (disch := decide) only [BitVec.extractLsb'_append_eq_of_le]
  exact ⟨BitVec.extractLsb'_append_eq_right, BitVec.extractLsb'_append_eq_right, BitVec.extractLsb'_append_eq_right,
    BitVec.extractLsb'_append_eq_right, BitVec.extractLsb'_eq_self⟩

/-- A setup word decodes by the packet's fields. -/
theorem decode_setupOf (c : Config) (bm br : Byte) (v idx len : Word16) :
    decode c (setupOf bm br v idx len) = .ok (decodeSetup ⟨bm, br, v, idx, len⟩) :=
  congrArg (fun p => Except.ok (decodeSetup p)) (ofWord_word ⟨bm, br, v, idx, len⟩)

/-- R91: a request no other row takes. -/
theorem decodeSetup_unrecognized {bm br : Byte} (h : unrecognizedOk bm br = true) (v idx len : Word16) :
    decodeSetup ⟨bm, br, v, idx, len⟩ = .unrecognized bm br v idx len := by
  simp only [unrecognizedOk, Bool.not_eq_true', Bool.or_eq_false_iff, Bool.and_eq_false_iff, beq_eq_false_iff_ne,
    ne_eq, ← not_and_or] at h
  obtain ⟨⟨⟨⟨⟨⟨⟨h0, h1⟩, h2⟩, h3⟩, h4⟩, h5⟩, h6⟩, h7⟩ := h
  simp only [decodeSetup, h0, h1, h2, h3, h4, h5, h6, h7, false_and, ↓reduceIte]

/-! ### Reports, R88 and R89 -/

/-- The two values of a report word. -/
theorem reportWord_values (v0 v1 : WireValue) :
    reportValue0 (reportWord v0 v1) = v0 ∧ reportValue1 (reportWord v0 v1) = v1 :=
  ⟨BitVec.extractLsb'_append_eq_right, BitVec.extractLsb'_append_eq_left⟩

/-! ### The two directions -/

/-- Settles O3: each instruction by the format of its row. -/
theorem decodeOfEncode : Obligations.DecodeOfEncode := by
  intro c i hdistinct hwf
  obtain ⟨hscan, hintensity, hdecode, hnormal, hport, hshutdown, hmask⟩ := decodeFrame_fixed hdistinct
  cases i
  case evUsbBadKind => exact congrArg Except.ok (decodeEvt_badKind hwf)
  case evUsbUnknownEp ep dir kind =>
    simp only [Instr.wf, Bool.not_eq_true', Bool.or_eq_false_iff, beq_eq_false_iff_ne, ne_eq] at hwf
    exact congrArg Except.ok (decodeEvt_unknownEp hwf.1 hwf.2 dir kind)
  case evRefused => exact congrArg Except.ok (decodeEvt_refused hwf)
  case callStartExchange buf len cb => exact decodeCall_startExchange buf len cb
  case callInvokeCallback cb => exact decodeCall_invokeCallback cb
  case callDisplayValues v0 v1 => exact decodeCall_displayValues v0 v1
  case callFatal x => exact decodeCall_fatal x
  case callModelFault x => exact decodeCall_modelFault x
  case wrScanLimit => exact hscan
  case wrIntensity => exact hintensity
  case wrDecode => exact hdecode
  case wrConfigNormal => exact hnormal
  case wrPortConfig => exact hport
  case wrConfigShutdown => exact hshutdown
  case wrKeyMaskOff => exact hmask
  case wrDigit d j data => exact decodeFrame_digit hdistinct d j data
  case rdKeyDebounced => exact decodeFrame_read c
  case getDescriptorDevice | getDescriptorConfiguration | getDescriptorString | getDescriptorDeviceQualifier =>
    rw [encode, decode_setupOf, decodeSetup_getDescriptorOnDevice]
    rfl
  case getDescriptorOtherDevice ty lo idx len =>
    simp only [Instr.wf, Bool.not_eq_true', Bool.or_eq_false_iff, beq_eq_false_iff_ne, ne_eq] at hwf
    obtain ⟨⟨⟨h1, h2⟩, h3⟩, h6⟩ := hwf
    rw [encode, decode_setupOf, decodeSetup_getDescriptorOnDevice, if_neg h1, if_neg h2, if_neg h3, if_neg h6]
  case getDescriptorReport =>
    rw [encode, decode_setupOf, decodeSetup_getDescriptorOnInterface]
    rfl
  case getDescriptorOtherInterface ty lo idx len =>
    simp only [Instr.wf, Bool.not_eq_true', beq_eq_false_iff_ne, ne_eq] at hwf
    rw [encode, decode_setupOf, decodeSetup_getDescriptorOnInterface, if_neg hwf]
  case setAddress | setConfiguration | setInterface | hidSetReport | hidSetIdle | hidGetReport =>
    rw [encode, decode_setupOf]
    rfl
  case unrecognized bm br v idx len => rw [encode, decode_setupOf, decodeSetup_unrecognized hwf]
  case hidReport v0 v1 | hidReportDecode v0 v1 =>
    obtain ⟨h0, h1⟩ := reportWord_values v0 v1
    rw [encode, decode, h0, h1]
  all_goals rfl

/-- Settles O4 in the negative: an operand byte that names no callback decodes to `CB_NONE` (the model's
`Callback.ofByte?` ends in the callback `none`), whose own word has operand byte 0: byte 5 is dropped. -/
theorem not_encodeOfDecode : ¬ Obligations.EncodeOfDecode := by
  intro h
  have hdecode : decode Config.default (.call 0x05_02) = .ok (.callInvokeCallback .none) := rfl
  have hword : encode Config.default (.callInvokeCallback .none) = .call 0x00_02 := rfl
  have hsame : Packet.call 0x00_02 = .call 0x05_02 := hword.symm.trans (h _ _ _ hdecode).1
  exact absurd hsame (by decide)

/-- Settles O5: each word is evaluated. -/
theorem decodeOfWords : Obligations.DecodeOfWords :=
  ⟨⟨rfl, by decide, by decide⟩, fun _ => ⟨rfl, rfl, rfl, rfl, rfl, rfl, rfl, rfl⟩⟩

end Sys2Proof.Machine
end

section
/-! PROOFS. The step as the schedule and the dispatcher choose it, `spec/60_exceptions.md` R256; the event words whose
condition does not hold; the idle events; the agents that only raise a flag; and the invariants right after reset. -/

namespace Sys2Proof.Machine

open Sys2Proof

/-! ### The schedule -/

/-- Settles O6. -/
theorem stepRunsPacket : Obligations.StepRunsPacket := by
  intro s p rest hin
  have hstep : step s = runPacket p { s with inputs := rest } := by rw [step, hin]
  refine ⟨fun i hi => ?_, fun x hx => ?_⟩
  · rw [hstep, runPacket, show decode ({ s with inputs := rest } : State).cfg p = .ok i from hi]
  · rw [hstep, runPacket, show decode ({ s with inputs := rest } : State).cfg p = .error x from hx]

/-- At the dispatcher's turn, or with nothing scheduled, the step is the dispatcher's. -/
theorem step_dispatcher {s t : State}
    (h : (s.inputs = [] ∧ t = s) ∨ (∃ rest, s.inputs = .dispatch :: rest ∧ t = { s with inputs := rest })) :
    step s = runDispatcher t := by
  rcases h with ⟨hin, rfl⟩ | ⟨rest, hin, rfl⟩ <;> rw [step, hin]

/-- The event word of the entry point that is enabled first (R256). -/
theorem runDispatcher_eventOf {s : State} {ep : EntryPoint} {i : Instr}
    (hfirst : s.cfg.dispatchOrder.find? (enabled s) = some ep) (hi : eventOf s ep = some i) :
    runDispatcher s = exec i s := by
  have hnext : nextEvent s = some i := by rw [nextEvent, hfirst]; exact hi
  rw [runDispatcher, hnext]

/-- Its condition holds. -/
theorem enabled_of_first {s : State} {ep : EntryPoint} (h : s.cfg.dispatchOrder.find? (enabled s) = some ep) :
    enabled s ep = true := List.find?_some (p := enabled s) h

/-- Settles O7. -/
theorem stepDispatches : Obligations.StepDispatches := by
  intro s t hturn
  rw [step_dispatcher hturn]
  refine ⟨fun hnone => ?idle, fun hfirst => ⟨enabled_of_first hfirst, runDispatcher_eventOf hfirst rfl⟩, fun hfirst => ?key,
    fun hfirst => ?usb, fun hfirst => ?bus, fun hfirst => ⟨enabled_of_first hfirst, runDispatcher_eventOf hfirst rfl⟩⟩
  case idle =>
    have hnext : nextEvent t = none := by rw [nextEvent, hnone]
    rw [runDispatcher, hnext]
  case key =>
    have hen : (t.keyIf && t.keyIe) = true := enabled_of_first hfirst
    exact ⟨by simpa using hen, runDispatcher_eventOf hfirst rfl⟩
  case bus =>
    have hen : (t.busResetIf || t.busOtherIf) = true := enabled_of_first hfirst
    exact ⟨by simpa using hen, runDispatcher_eventOf hfirst rfl⟩
  case usb =>
    have hen : (!t.trnFifo.isEmpty) = true := enabled_of_first hfirst
    obtain ⟨⟨ep, d⟩, rest, hqueue⟩ := List.exists_cons_of_ne_nil (by simpa using hen)
    have hrun := runDispatcher_eventOf hfirst (usbEvent_cons hqueue)
    refine ⟨ep, d, rest, hqueue, ?_, ?_, ?_, ?_, ?_, ?_⟩
    · rintro rfl rfl hpid; simpa [hpid] using hrun
    · rintro rfl rfl hpid; simpa [hpid] using hrun
    · rintro rfl rfl; simpa using hrun
    · rintro rfl rfl; simpa using hrun
    · rintro rfl rfl; simpa using hrun
    · intro h0 h1
      rw [hrun, if_neg h0, if_neg h1]
      cases d <;> rfl

/-- The event words the dispatcher can choose are instructions, and none is of a bad kind. -/
theorem DispatchedEvent.wf {i : Instr} (h : DispatchedEvent i) :
    i.wf = true ∧ ∀ ep dir kind, i ≠ .evUsbBadKind ep dir kind := by
  cases h with
  | usbUnknownEp d h0 h1 => exact ⟨by simpa [Instr.wf] using ⟨h0, h1⟩, nofun⟩
  | _ => exact ⟨rfl, nofun⟩

/-- Settles O8. -/
theorem dispatcherNeverRefuses : Obligations.DispatcherNeverRefuses := by
  intro s hturn
  refine ⟨fun i hi => (nextEvent_dispatched hi).wf, fun x => ?_⟩
  have hstep : ∃ t, step s = runDispatcher t := by
    rcases hturn with hin | ⟨rest, hin⟩
    · exact ⟨s, step_dispatcher (.inl ⟨hin, rfl⟩)⟩
    · exact ⟨_, step_dispatcher (.inr ⟨rest, hin, rfl⟩)⟩
  obtain ⟨t, ht⟩ := hstep
  rw [ht]
  rcases runDispatcher_cases t with h | ⟨i, hi, h⟩ <;> rw [h]
  · exact nofun
  · exact exec_ne_refused (refusedRow_nextEvent hi) t x

/-! ### Event words whose condition does not hold -/

/-- The test of the queue's head, refuted. -/
theorem headIs_of_ne {ep : BitVec 4} {d : Dir} {s : State} (h : s.trnFifo.head? ≠ some (ep, d)) :
    ¬headIs ep d s = true := by
  simpa [headIs] using h

/-- Settles O43: each guard fails. -/
theorem disabledEventsDoNothing : Obligations.DisabledEventsDoNothing := by
  intro s
  refine ⟨fun h => if_neg (by simp [h]), fun h => if_neg ?_, fun h => ⟨?_, ?_⟩, fun h => ?_, fun h => ?_, fun h => ?_,
    fun h => ?_, fun h => ?_, fun h => if_neg (by simp [h]), fun h => if_neg (by simp [h]),
    fun h => if_neg (by simp [h]), fun ep dir kind h => ?_⟩
  · rintro ⟨hif, hie⟩
    simp [hif, hie] at h
  · exact exec_usbEvent_disabled rfl fun hen => headIs_of_ne h hen.1
  · exact exec_usbEvent_disabled rfl fun hen => headIs_of_ne h hen.1
  · exact exec_usbEvent_disabled rfl fun hen => h hen.2
  · exact exec_usbEvent_disabled rfl fun hen => hen.2 h
  · exact exec_usbEvent_disabled rfl (headIs_of_ne h)
  · exact exec_usbEvent_disabled rfl (headIs_of_ne h)
  · exact exec_usbEvent_disabled rfl (headIs_of_ne h)
  · exact exec_usbEvent_disabled rfl (headIs_of_ne h)

/-! ### The idle events, R262, R263, R266 -/

/-- R262: the completion of an unknown endpoint alone in the queue is consumed. -/
theorem usbTransaction_unknown {s : State} {ep : BitVec 4} {d : Dir} (h0 : ep ≠ 0) (h1 : ep ≠ 1)
    (hqueue : s.trnFifo = [(ep, d)]) : usbTransaction s = .ok { s with trnFifo := [] } := by
  have hroute : route ep d (popTrn s) = .ok (popTrn s) := by
    unfold route
    rw [if_neg h0, if_neg h1]
  rw [usbTransaction_cons hqueue, hroute, popTrn_single hqueue, thenDrain_ok rfl]

/-- Settles O45. -/
theorem idleEventsRun : Obligations.IdleEventsRun := by
  intro s
  refine ⟨fun hother hreset => ?other, fun hother hreset => ?both, fun htick => if_pos htick,
    fun ep dir kind h0 h1 hqueue => ?unknown⟩
  case other => exact (if_pos hother).trans (congrArg _ (usbBusEvent_of_noReset hreset))
  case both =>
    have hrun := usbBusEvent_of_busResetIf hreset
    refine ⟨usbBusEvent s, if_pos hreset, if_pos hother, ?_, ?_⟩
    · rw [hrun]; simp
    · rw [hrun]
  case unknown =>
    have hhead : headIs ep (dirOf dir) s = true := (headIs_iff _ _ _).2 ⟨[], hqueue⟩
    rw [exec_usbEvent (i := .evUsbUnknownEp ep dir kind) hhead, usbTransaction_unknown h0 h1 hqueue]
    rfl

/-! ### The agents that only raise a flag, R46, R50, R51 -/

/-- The step of the agent that is scheduled next. -/
theorem step_agent {s : State} {a : AgentStep} {rest : List Input} (h : s.inputs = .agent a :: rest) :
    step s = agentStep a { s with inputs := rest } := by rw [step, h]

/-- Settles O47. -/
theorem deviceAgentsStep : Obligations.DeviceAgentsStep := by
  intro s rest rx
  refine ⟨fun hin hbusy => ?_, fun hin hidle => ?_, step_agent, step_agent, step_agent, step_agent⟩
  · rw [step_agent hin, agentStep, shifterStep, if_pos hbusy]
  · rw [step_agent hin, agentStep, shifterStep, if_neg (by simp [hidle])]

/-! ### Right after reset, R52 and R291 -/

/-- D40: the initial values fit the wire. -/
theorem config_valuesOk (c : Config) : c.initV0.toNat < 2 ^ 20 ∧ c.initV1.toNat < 2 ^ 20 := by
  have h := c.admissible
  simp only [RawConfig.admissible, Bool.and_eq_true, RawConfig.valuesOk, decide_eq_true_eq] at h
  exact h.1.1.1.2

/-- R52: every descriptor right after reset. -/
theorem resetWith_bd (c : Config) (e : BdId) : ((State.resetWith c).bd e).adr.toNat = (epBuffer c e).1 ∧
    ((State.resetWith c).bd e).cnt.toNat ≤ (epBuffer c e).2 := by
  cases e <;> exact ⟨rfl, by simp [State.resetWith, State.bd, State.powerOn, State.idleBd, epBuffer]⟩

/-- Settles O2. -/
theorem resetKeepsInvariants : Obligations.ResetKeepsInvariants := by
  refine ⟨rfl, fun c => ⟨?_, ⟨.inl rfl, rfl⟩, ⟨rfl, fun _ => ⟨rfl, rfl⟩, nofun, rfl, rfl⟩, ?_, ?_, ?_, rfl⟩⟩
  · exact ⟨fun _ => ⟨rfl, rfl, rfl, rfl⟩, nofun⟩
  · exact config_valuesOk c
  · exact resetWith_bd c
  · exact transferInv_none rfl

end Sys2Proof.Machine
end

section
/-! PROOFS. The primitives of memory, of a buffer descriptor and of the SPI engine with everything they record:
`spec/20_memory.md` R61, R62, R73, `spec/10_state.md` R36, `spec/40_spi_engine.md` R120, R121. -/

namespace Sys2Proof.Machine

open Sys2Proof

/-! ### Memory, R61, R62, R73 -/

/-- A CORE write with what it records: the memory it leaves, and `BD_OWNERSHIP` where it stores nothing. -/
theorem coreWrite_eq (a : Nat) (bs : List Byte) (s : State) : ∃ m slot,
    (coreMayAccess s a bs.length → StoredAt s a bs m ∧ slot = []) ∧
    (¬coreMayAccess s a bs.length → m = s.ram ∧ slot = [ModelCause.bdOwnership]) ∧
    (∀ x, (x < a ∨ a + bs.length ≤ x) → m.read? x = s.ram.read? x) ∧
    coreWrite a bs s = { s with
      ram := m
      faults := s.faults ++ slot.map .model
      trace := s.trace ++ slot.map .modelFault } := by
  rw [coreMayAccess_iff]
  rcases coreWrite_cases a bs s with ⟨hcpu, hw⟩ | ⟨hsie, hw⟩
  · have hstored := storedAt_setAll s a bs
    exact ⟨_, [], fun _ => ⟨hstored, rfl⟩, fun h => absurd hcpu h, hstored.2, by simp [hw]⟩
  · exact ⟨s.ram, [.bdOwnership], fun h => by simp [hsie] at h, fun _ => ⟨rfl, rfl⟩, fun _ _ => rfl, hw⟩

/-- The bytes a read finds written are those it returns. -/
theorem readBytes_written {s : State} {a n k : Nat} {b : Byte} (hk : k < n) (h : s.ram.read? (a + k) = some b) :
    (readBytes s a n)[k]? = some b := by
  rw [readBytes_get s a hk, h, Option.getD_some]

/-- Settles O9. -/
theorem memoryAccesses : Obligations.MemoryAccesses := by
  intro s a n bs
  obtain ⟨m, slot, hstored, hkept, -, hwrite⟩ := coreWrite_eq a bs s
  refine ⟨fun hle hmay => ?store, fun hle hmay => ?keep, fun hgt => if_neg (by omega), fun hle => ?read,
    fun hgt => if_neg (by omega)⟩
  case store =>
    obtain ⟨hm, rfl⟩ := hstored hmay
    exact ⟨m, hm, (if_pos hle).trans (congrArg _ (by simpa using hwrite))⟩
  case keep =>
    obtain ⟨rfl, rfl⟩ := hkept hmay
    exact (if_pos hle).trans (congrArg _ hwrite)
  case read =>
    obtain ⟨causes, hcauses, hafter⟩ := afterCoreRead_causes a n s
    refine ⟨readBytes s a n, causes, _, hcauses, readBytes_length s a n, fun k b => readBytes_written,
      fun hwritten => if_neg fun hu => ?_, fun hunwritten => if_pos ((touchesUnwritten_iff _ _ _).2 hunwritten),
      (if_pos hle).trans (congrArg (fun r => Except.ok (readBytes s a n, r)) hafter)⟩
    obtain ⟨k, hk, hnone⟩ := (touchesUnwritten_iff _ _ _).1 hu
    exact hwritten k hk hnone

/-- Settles O10. -/
theorem sieBufferKept : Obligations.SieBufferKept := by
  intro s e a bs hsie
  refine ⟨fun x hx hx' => coreWrite_keeps_sie_buffer hsie hx hx' a bs, fun x hx hx' ha hb => ?_⟩
  have hmay : ¬coreMayAccess s a bs.length := fun h => h e x hsie hx hx' ⟨ha, hb⟩
  rw [coreMayAccess_iff] at hmay
  exact if_pos (by simpa using hmay)

/-- What a read records depends on the owners and on the bytes read. -/
theorem ReadCauses.congr {s t : State} {a n : Nat} {causes : List ModelCause} (h : ReadCauses t a n causes)
    (hcfg : t.cfg = s.cfg) (hbd : ∀ e, t.bd e = s.bd e)
    (hram : ∀ k, k < n → t.ram.read? (a + k) = s.ram.read? (a + k)) : ReadCauses s a n causes := by
  have hmay : coreMayAccess t a n ↔ coreMayAccess s a n := by simp only [coreMayAccess, hcfg, hbd]
  obtain ⟨owner, unwritten, rfl, hcpu, hsie, hwritten, hunwritten⟩ := h
  refine ⟨owner, unwritten, rfl, fun h => hcpu (hmay.2 h), fun h => hsie (h ∘ hmay.1),
    fun h => hwritten fun k hk => hram k hk ▸ h k hk, ?_⟩
  rintro ⟨k, hk, hnone⟩
  exact hunwritten ⟨k, hk, (hram k hk).trans hnone⟩

/-! ### Descriptors, R36 and R301 -/

/-- Settles O11. -/
theorem descriptorPrimitives : Obligations.DescriptorPrimitives := by
  intro s e adr cnt dts
  refine ⟨fun hsie => ⟨arm_sie adr cnt dts hsie, if_pos hsie, readField_sie hsie⟩, fun hcpu => ⟨readField_cpu hcpu, ?_, ?_,
    ?_, ?_⟩, ?_, ?_, fun e' hne => ⟨?_, ?_, ?_⟩, ?_, ?_, ?_⟩
  · rw [arm_bd, if_pos ⟨hcpu, rfl⟩]
  · rw [arm_cpu adr cnt dts hcpu]
    cases e <;> rfl
  · rw [stall_bd, if_pos ⟨hcpu, rfl⟩]
  · rw [stall, if_neg (by simp [hcpu])]
    cases e <;> rfl
  · rw [reclaim_bd, if_pos rfl, reclaimed]
  · cases e <;> rfl
  · exact arm_bd_ne adr cnt dts e s hne
  · exact stall_bd_ne e s hne
  · exact reclaim_bd_ne e s hne
  · simp
  · simp
  · simp

/-! ### The engine's request, R120 -/

/-- `ShifterWrite(RAM[a])` with what its read records: a written byte is the one sent, without a draw. -/
theorem sendByte_eq (a : Nat) (s : State) : ∃ b causes n, ReadCauses s a 1 causes ∧
    (∀ b', s.ram.read? a = some b' → b = b' ∧ n = s.draws) ∧
    sendByte a s = { s with
      shTx := b
      shBusy := true
      draws := n
      faults := s.faults ++ causes.map .model
      trace := s.trace ++ causes.map .modelFault ++ [.tx b] } := by
  obtain ⟨causes, hcauses, hafter⟩ := afterCoreRead_causes a 1 s
  refine ⟨(readBytes s a 1).headD 0, causes, _, hcauses, fun b' hb' => ⟨?_, if_neg fun hu => ?_⟩,
    congrArg (shifterWrite _) hafter⟩
  · have hb : (readBytes s a 1)[0]? = some b' := readBytes_written Nat.one_pos hb'
    rw [← List.head?_eq_getElem?] at hb
    simp [List.headD_eq_head?_getD, hb]
  · obtain ⟨k, hk, hnone⟩ := (touchesUnwritten_iff _ _ _).1 hu
    obtain rfl : k = 0 := by omega
    exact absurd (hb'.symm.trans hnone) nofun

/-- Settles O12. -/
theorem startExchangeRuns : Obligations.StartExchangeRuns := by
  intro s buf len cb
  refine ⟨fun hready hlen heven => ⟨fun b hb hmay => ?written, ?accepted⟩, fun hfail => ?rejected⟩
  case written =>
    exact congrArg _ (request_ready cb hready hlen heven ((coreMayAccess_iff _ _ _).1 hmay) hb)
  case accepted =>
    obtain ⟨b, causes, n, hcauses, hb, hsend⟩ := sendByte_eq buf.toNat
      (setCs true { s with spiActive := true, spiPtr := buf, spiRemaining := len, spiCallback := cb })
    refine ⟨b, causes, n, hcauses.congr rfl (bd_congr ⟨rfl, rfl, rfl, rfl⟩) fun _ _ => rfl, hb, ?_⟩
    have hnone : startFailures len s = [] := (startFailures_nil len s).2 ⟨hready.1, hlen, hready.2, heven⟩
    exact congrArg _ ((if_pos hnone).trans hsend)
  case rejected =>
    refine ⟨_, _, rfl, rfl, ?_⟩
    have hsome : startFailures len s ≠ [] := by
      rw [Ne, startFailures_nil]
      rintro ⟨hactive, hlen, hfull, heven⟩
      exact hfail ⟨⟨hactive, hfull⟩, hlen, heven⟩
    have hodd : len.toNat % 2 ≠ 0 ↔ len.toNat % 2 = 1 := by omega
    refine congrArg _ ((startExchange_rejected buf cb hsome).trans ?_)
    rw [raiseAll_eq, startFailures]
    simp only [pFrame_eq, hodd]
    split_ifs <;> simp [isFatal, causeEvent]

/-! ### The byte-complete event, R121 and R264 -/

/-- R121: the received byte stored in the slot just sent, with what the write records. -/
theorem storeReceived_eq (s : State) : ∃ m slot,
    (coreMayAccess s s.spiPtr.toNat 1 → StoredAt s s.spiPtr.toNat [s.shRx] m ∧ slot = []) ∧
    (¬coreMayAccess s s.spiPtr.toNat 1 → m = s.ram ∧ slot = [ModelCause.bdOwnership]) ∧
    (∀ x, x ≠ s.spiPtr.toNat → m.read? x = s.ram.read? x) ∧
    storeReceived s = { s with
      shRxFull := false
      ram := m
      spiPtr := s.spiPtr + 1
      spiRemaining := s.spiRemaining - 1
      faults := s.faults ++ slot.map .model
      trace := s.trace ++ [.rx s.shRx] ++ slot.map .modelFault } := by
  obtain ⟨m, slot, hstored, hkept, hother, hwrite⟩ := coreWrite_eq s.spiPtr.toNat [s.shRx] (afterShifterRead s)
  refine ⟨m, slot, hstored, hkept, fun x hx => hother x ?_, ?_⟩
  · simp only [List.length_singleton]
    omega
  · simp only [storeReceived, hwrite]
    rfl

/-- The next slot is another address, also where the pointer wraps. -/
theorem nextSlot_ne (p : Word16) : (p + 1).toNat ≠ p.toNat := by
  have := p.isLt
  have hone : (1 : Word16).toNat = 1 := rfl
  rw [BitVec.toNat_add, hone]
  omega

/-- R121: at a command-pair boundary chip-select is deasserted and asserted. -/
theorem csBoundary_eq (p : Prop) [Decidable p] (s : State) : (if p then setCs true (setCs false s) else s) = { s with
    spiCs := if p then true else s.spiCs
    trace := s.trace ++ if p then [.cs false, .cs true] else [] } := by
  split
  · simp [setCs, emit]
  · simp

/-- R264: the event of a set flag. -/
theorem exec_evSpiByteComplete {s : State} (hif : s.spiIf = true) :
    exec .evSpiByteComplete s = .next (invokeCallback (byteCallback s) (byteHandled s)) :=
  (if_pos hif).trans (congrArg _ (spiByteComplete_eq s))

/-- Settles O13. -/
theorem byteCompleteContinues : Obligations.ByteCompleteContinues := by
  intro s hif hactive hmore
  obtain ⟨m, slot, hstored, hkept, hother, hstore⟩ := storeReceived_eq { s with spiIf := false }
  have hcallback : byteCallback s = .none := if_neg fun h => hmore h.2
  have hbyte : byteHandled s = continueExchange (storeReceived { s with spiIf := false }) := by
    rcases byteHandled_cases s with ⟨hidle, -⟩ | ⟨-, hlast, -⟩ | ⟨-, -, h⟩
    · exact absurd (hactive.symm.trans hidle) nofun
    · exact absurd ((remaining_sub_one_eq_zero _).1 hlast) hmore
    · exact h
  rw [exec_evSpiByteComplete hif, hcallback, hbyte, continueExchange, hstore, csBoundary_eq]
  obtain ⟨b, causes, n, hcauses, hb, hsend⟩ := sendByte_eq (s.spiPtr + 1).toNat { s with
    spiIf := false
    shRxFull := false
    ram := m
    spiPtr := s.spiPtr + 1
    spiRemaining := s.spiRemaining - 1
    spiCs := if (s.spiRemaining - 1).toNat % 2 = 0 then true else s.spiCs
    faults := s.faults ++ slot.map .model
    trace := s.trace ++ [.rx s.shRx] ++ slot.map .modelFault ++
      (if (s.spiRemaining - 1).toNat % 2 = 0 then [.cs false, .cs true] else []) }
  have hnext : m.read? (s.spiPtr + 1).toNat = s.ram.read? (s.spiPtr + 1).toNat := hother _ (nextSlot_ne s.spiPtr)
  refine ⟨m, slot, b, causes, n, hstored, hkept, ?_, fun b' hb' => hb b' (hnext.trans hb'), congrArg _ hsend⟩
  refine hcauses.congr rfl (bd_congr ⟨rfl, rfl, rfl, rfl⟩) fun k hk => ?_
  obtain rfl : k = 0 := by omega
  exact hnext

/-- Settles O14. -/
theorem byteCompleteEnds : Obligations.ByteCompleteEnds := by
  intro s hif
  refine ⟨fun hactive hlast => ?ends, fun hidle => ?spurious⟩
  case ends =>
    obtain ⟨m, slot, hstored, hkept, -, hstore⟩ := storeReceived_eq { s with spiIf := false }
    have hcallback : byteCallback s = s.spiCallback := if_pos ⟨hactive, hlast⟩
    have hbyte : byteHandled s = slotFreed (storeReceived { s with spiIf := false }) := by
      rcases byteHandled_cases s with ⟨hidle, -⟩ | ⟨-, -, h⟩ | ⟨-, hmore, -⟩
      · exact absurd (hactive.symm.trans hidle) nofun
      · exact h
      · exact absurd ((remaining_sub_one_eq_zero _).2 hlast) hmore
    refine ⟨m, slot, _, hstored, hkept, exec_evSpiByteComplete hif, ?_⟩
    rw [hcallback, hbyte, hstore, hlast]
    rfl
  case spurious =>
    have hcallback : byteCallback s = .none := if_neg (by simp [hidle])
    rw [exec_evSpiByteComplete hif, hcallback]
    exact congrArg _ (if_pos hidle)

end Sys2Proof.Machine
end

section
/-! PROOFS. The digits of a display and the report codec read back, the command frames one by one, and the completion of
`EP1_OUT`: `spec/41_display_keyscan.md` R155, `spec/30_encoding.md` R88, R94, `spec/43_usb_ep1.md` R226, R232. -/

namespace Sys2Proof.Machine

open Sys2Proof

/-! ### The digits, R151 and R155 -/

/-- The mask leaves the low nibble clear. -/
theorem dpMask_low (c : Config) : c.dpMask &&& 0x0F = 0 := by
  rcases dpMask_cases c with h | h | h | h <;> rw [h] <;> rfl

/-- A decimal digit keeps its low nibble. -/
theorem digit_low {k : Nat} (h : k < 10) : (BitVec.ofNat 8 k &&& 0x0F).toNat = k := by
  interval_cases k <;> rfl

/-- R155: the low nibble of a data byte is the digit. -/
theorem digitByte_low (c : Config) (dp : DigitId) (n : Nat) {v : StoredValue} (i : DigitId) (hv : v.toNat ≤ 999999) :
    (digitByte c dp n v i.val &&& 0x0F).toNat = v.toNat / 10 ^ i.val % 10 := by
  have hpoint : (if i = dp then c.dpMask else 0) &&& 0x0F = 0#8 := by
    split
    · exact dpMask_low c
    · rfl
  rw [digitByte_of_le c dp n i hv, BitVec.and_or_distrib_right, hpoint, BitVec.or_zero]
  exact digit_low (Nat.mod_lt _ (by decide))

/-- The point's bit stands on its digit only (R95). -/
theorem digitByte_point (c : Config) (dp : DigitId) (n : Nat) (v : StoredValue) (i : DigitId) :
    digitByte c dp n v i.val &&& c.dpMask ≠ 0 ↔ i = dp := by
  have hmask : c.dpMask ≠ 0 := by
    rcases dpMask_cases c with h | h | h | h <;> rw [h] <;> decide
  have hbit : digitByte c dp n v i.val &&& c.dpMask = (if i = dp then c.dpMask else 0) &&& c.dpMask := by
    rw [← digitByte_high c dp n v i, BitVec.and_assoc, BitVec.and_comm 0xF0, dpMask_high]
  rw [hbit]
  split
  next h => simpa [h] using hmask
  next h => simp [h]

/-- Settles O20: the digits are those of the decimal expansion. -/
theorem digitRoundTrip : Obligations.DigitRoundTrip := by
  intro c dp n v
  refine ⟨fun hv => ?_, fun i => ⟨digitByte_high c dp n v i, digitByte_point c dp n v i⟩⟩
  have hdigit : ((List.range 6).map fun i => (digitByte c dp n v i &&& 0x0F).toNat * 10 ^ i) =
      (List.range 6).map fun i => v.toNat / 10 ^ i % 10 * 10 ^ i :=
    List.map_congr_left fun i hi => by rw [digitByte_low c dp n ⟨i, List.mem_range.1 hi⟩ hv]
  rw [hdigit]
  simp only [List.range_succ, List.range_zero, List.nil_append, List.cons_append, List.map_cons, List.map_nil,
    List.sum_cons, List.sum_nil]
  omega

/-! ### The command frames, R94 -/

/-- R94, R84: a frame at its place in a buffer of the driver, sent alone. -/
theorem sendFrame_eq {s : State} {k n j : Nat} {buf : Word16} {w : BitVec 16} {b0 b1 : Byte}
    (hregion : s.cfg.regions[k]? = some (buf.toNat, n)) (hk : k < 5) (hj : 2 * j + 2 ≤ n) (hw : frameBytes w = [b0, b1]) :
    ∃ m, StoredAt s (buf.toNat + 2 * j) [b0, b1] m ∧
      (engineReady s → sendFrame buf j w s =
        exchangeStarted (buf + BitVec.ofNat 16 (2 * j)) 2 .none b0 { s with ram := m }) ∧
      (¬engineReady s → sendFrame buf j w s = signalled (slotFailures s) { s with ram := m }) := by
  have hinside := config_regions_inside s.cfg hregion
  have hplace : (buf + BitVec.ofNat 16 (2 * j)).toNat = buf.toNat + 2 * j := by
    rw [BitVec.toNat_add, BitVec.toNat_ofNat]
    simp only at hinside
    omega
  have hown : sieOwnsRange s (buf.toNat + 2 * j) 2 = false :=
    sieOwnsRange_driver s hregion hk (Nat.le_add_right _ _) (by simp only; omega)
  refine ⟨_, storedAt_setAll s _ _, fun h => ?_, fun h => ?_⟩
  · rw [sendFrame, hw]
    exact write_request_ready .none hown hplace h (by decide) (by decide)
  · rw [sendFrame, hw]
    exact write_request_lost _ .none hown h (by decide) (by decide)

/-- A frame instruction is its frame sent. -/
theorem frame_runs {s : State} {i : Instr} {k n j : Nat} {buf : Word16} {w : BitVec 16} {b0 b1 : Byte}
    (hregion : s.cfg.regions[k]? = some (buf.toNat, n)) (hk : k < 5) (hj : 2 * j + 2 ≤ n) (hw : frameBytes w = [b0, b1])
    (hexec : exec i s = .next (sendFrame buf j w s)) :
    ∃ m, StoredAt s (buf.toNat + 2 * j) [b0, b1] m ∧
      (engineReady s → exec i s =
        .next (exchangeStarted (buf + BitVec.ofNat 16 (2 * j)) 2 .none b0 { s with ram := m })) ∧
      (¬engineReady s → exec i s = .next (signalled (slotFailures s) { s with ram := m })) := by
  obtain ⟨m, hm, hready, hlost⟩ := sendFrame_eq hregion hk hj hw
  exact ⟨m, hm, fun h => hexec.trans (congrArg _ (hready h)), fun h => hexec.trans (congrArg _ (hlost h))⟩

/-- Settles O23: each row with its buffer and its place. -/
theorem framesRun : Obligations.FramesRun := by
  rintro s i buf off b0 b1 (⟨rfl, rfl, rfl, rfl, rfl⟩ | ⟨rfl, rfl, rfl, rfl, rfl⟩ | ⟨rfl, rfl, rfl, rfl, rfl⟩ |
    ⟨rfl, rfl, rfl, rfl, rfl⟩ | ⟨rfl, rfl, rfl, rfl, rfl⟩ | ⟨rfl, rfl, rfl, rfl, rfl⟩ | ⟨rfl, rfl, rfl, rfl, rfl⟩ |
    ⟨d, i, rfl, rfl, rfl, rfl⟩ | ⟨rfl, rfl, rfl, rfl, rfl⟩)
  · exact frame_runs (k := 0) (j := 0) rfl (by decide) (by decide) (frameBytes_write _ _) rfl
  · exact frame_runs (k := 0) (j := 1) rfl (by decide) (by decide) (frameBytes_write _ _) rfl
  · exact frame_runs (k := 0) (j := 2) rfl (by decide) (by decide) (frameBytes_write _ _) rfl
  · exact frame_runs (k := 0) (j := 3) rfl (by decide) (by decide) (frameBytes_write _ _) rfl
  · exact frame_runs (k := 0) (j := 4) rfl (by decide) (by decide) (frameBytes_write _ _) rfl
  · exact frame_runs (k := 1) (j := 0) rfl (by decide) (by decide) (frameBytes_write _ _) rfl
  · exact frame_runs (k := 1) (j := 1) rfl (by decide) (by decide) (frameBytes_write _ _) rfl
  · exact frame_runs (k := 2) rfl (by decide) (digitFrame_inside d i) (frameBytes_write _ _) rfl
  · exact frame_runs (k := 3) (j := 0) rfl (by decide) (by decide) (frameBytes_read _) rfl

/-! ### The report codec, R88 and R89 -/

/-- Two nibbles as a byte. -/
theorem toNat_nibbles (x y : BitVec 4) : (x ++ y : Byte).toNat = x.toNat * 16 + y.toNat := by
  rw [BitVec.toNat_append, ← Nat.shiftLeft_add_eq_or_of_lt y.isLt, Nat.shiftLeft_eq]

/-- R88: the five bytes are those of the forty-bit number. -/
theorem encodeReport_eq (v0 v1 : WireValue) : encodeReport v0 v1 =
    (List.range 5).map fun k => BitVec.ofNat 8 ((v0.toNat + v1.toNat * 2 ^ 20) / 2 ^ (8 * k)) := by
  have h0 := wireValue_lt v0
  have h1 := wireValue_lt v1
  have hbyte (b : Byte) (n : Nat) (h : b.toNat = n % 256) : b = BitVec.ofNat 8 n :=
    BitVec.eq_of_toNat_eq (by rw [h, BitVec.toNat_ofNat])
  simp only [encodeReport, List.range_succ, List.range_zero, List.nil_append, List.cons_append, List.map_cons,
    List.map_nil, List.cons.injEq, and_true]
  refine ⟨hbyte _ _ ?_, hbyte _ _ ?_, hbyte _ _ ?_, hbyte _ _ ?_, hbyte _ _ ?_⟩
  case refine_3 =>
    rw [toNat_nibbles]
    simp only [BitVec.extractLsb'_toNat, Nat.shiftRight_eq_div_pow]
    omega
  all_goals
    simp only [BitVec.extractLsb'_toNat, Nat.shiftRight_eq_div_pow]
    omega

/-- R89: a wire value zero-extended is the stored value of the same number. -/
theorem wireValue_setWidth (v : WireValue) : v.setWidth pStoreBits = BitVec.ofNat 24 v.toNat :=
  (BitVec.ofNat_toNat pStoreBits v).symm

/-- Settles O29. -/
theorem reportCodecRuns : Obligations.ReportCodecRuns := by
  intro s v0 v1
  refine ⟨fun hcpu => ⟨_, storedAt_setAll s _ _, ?_⟩, _, exec_callDisplayValues _ _ s, ?_⟩
  · have hown : sieOwnsRange s s.cfg.addrEp1In.toNat 5 = false := sieOwnsRange_endpoint s .ep1In hcpu le_rfl le_rfl
    rw [← encodeReport_eq]
    exact congrArg _ (coreWrite_cpu hown)
  · rw [← wireValue_setWidth, ← wireValue_setWidth]
    rfl

/-! ### The completion of `EP1_OUT`, R226 -/

/-- The buffer of a descriptor is the SIE's exactly while the descriptor is. -/
theorem sieOwnsRange_ep1Out (s : State) : sieOwnsRange s s.cfg.addrEp1Out.toNat 5 = true ↔ s.bdEp1Out.own = .sie := by
  constructor
  · intro h
    by_contra hne
    have hcpu : (s.bd .ep1Out).own = .cpu := by
      cases ho : s.bdEp1Out.own
      · exact ho
      · exact absurd ho hne
    exact absurd (h.symm.trans (sieOwnsRange_endpoint s .ep1Out hcpu le_rfl le_rfl)) nofun
  · intro h
    exact (sieOwnsRange_iff _ _ _).2 ⟨by decide, .ep1Out, h, by simp [epBuffer]⟩

/-- R226: the completion alone in the queue, of an enabled endpoint. -/
theorem exec_evUsbEp1Out {s : State} (hqueue : s.trnFifo = [(1, .out)]) :
    exec .evUsbEp1Out s = .next (onEp1Out { s with trnFifo := [] }) := by
  have hhead : headIs 1 .out s = true := (headIs_iff _ _ _).2 ⟨[], hqueue⟩
  rw [exec_usbEvent (i := .evUsbEp1Out) hhead, usbTransaction_cons hqueue, popTrn_single hqueue]
  change outcome (thenDrain (.ok (onEp1Out { s with trnFifo := [] }))) = _
  rw [thenDrain_ok (by simp)]
  rfl

/-- The five bytes of a report. -/
theorem readBytes_five (s : State) (a : Nat) : ∃ r0 r1 r2 r3 r4, readBytes s a 5 = [r0, r1, r2, r3, r4] :=
  ⟨_, _, _, _, _, rfl⟩

/-- What the report's read leaves: `BD_OWNERSHIP` of a descriptor the SIE owns, then the draw of an unwritten byte. -/
theorem afterCoreRead_ep1Out (s : State) :
    afterCoreRead s.cfg.addrEp1Out.toNat 5 s =
      afterRead s.cfg.addrEp1Out.toNat 5 (if s.bdEp1Out.own = .sie then modelFaulted .bdOwnership s else s) := by
  simp only [afterCoreRead, sieOwnsRange_ep1Out]
  rfl

/-- R226 of an enabled endpoint: the values of the buffer displayed, then the arm. -/
theorem onEp1Out_enabled {s : State} (hen : s.ep1Enabled = true) {r0 r1 r2 r3 r4 : Byte}
    (hread : readBytes s s.cfg.addrEp1Out.toNat 5 = [r0, r1, r2, r3, r4]) :
    onEp1Out s = rearmEp1Out (displayValues (0#4 ++ r2.extractLsb' 0 4 ++ r1 ++ r0)
      (0#4 ++ r4 ++ r3 ++ r2.extractLsb' 4 4) (afterCoreRead s.cfg.addrEp1Out.toNat 5 s)) := by
  rw [onEp1Out, if_neg (by simp [hen])]
  simp only [pReportLen_eq, hread, decodeReport0_eq, decodeReport1_eq]

/-- R226: `EP1_OUT` armed again with the flipped toggle. -/
theorem rearmEp1Out_cpu {s : State} (h : s.bdEp1Out.own = .cpu) :
    rearmEp1Out s = armedEp1Out (s.ep1OutDts ^^^ 1) { s with ep1OutDts := s.ep1OutDts ^^^ 1 } :=
  arm_ep1Out (s := { s with ep1OutDts := s.ep1OutDts ^^^ 1 }) _ h

/-- Of a descriptor the SIE owns only the toggle flips, and the `Arm` is recorded (log 12). -/
theorem rearmEp1Out_sie {s : State} (h : s.bdEp1Out.own = .sie) :
    rearmEp1Out s = modelFaulted .bdOwnership { s with ep1OutDts := s.ep1OutDts ^^^ 1 } :=
  arm_sie (e := .ep1Out) (s := { s with ep1OutDts := s.ep1OutDts ^^^ 1 }) _ _ _ h

/-- Settles O26: the completion consumed, the read, the display, the arm. -/
theorem endpointOneOut : Obligations.EndpointOneOut := by
  intro s hqueue
  rw [exec_evUsbEp1Out hqueue]
  refine ⟨fun hdis => congrArg _ (if_pos hdis), fun hen => ?enabled⟩
  case enabled =>
    obtain ⟨r0, r1, r2, r3, r4, hread⟩ := readBytes_five { s with trnFifo := [] } s.cfg.addrEp1Out.toNat
    have howner : (if s.bdEp1Out.own = .sie then modelFaulted .bdOwnership { s with trnFifo := [] }
        else { s with trnFifo := [] }) =
        { (if s.bdEp1Out.own = .sie then modelFaulted .bdOwnership s else s) with trnFifo := [] } := by
      split <;> rfl
    have hafter := (afterCoreRead_ep1Out { s with trnFifo := [] }).trans (congrArg _ howner)
    have hrun := onEp1Out_enabled (s := { s with trnFifo := [] }) hen hread
    have hown : (afterCoreRead s.cfg.addrEp1Out.toNat 5 { s with trnFifo := [] }).bdEp1Out = s.bdEp1Out := by simp
    have hdts : (afterCoreRead s.cfg.addrEp1Out.toNat 5 { s with trnFifo := [] }).ep1OutDts = s.ep1OutDts := by simp
    have hram : (if s.bdEp1Out.own = .sie then modelFaulted .bdOwnership s else s).ram = s.ram := by split <;> rfl
    generalize (if s.bdEp1Out.own = .sie then modelFaulted .bdOwnership s else s) = o at hafter hram
    generalize afterCoreRead s.cfg.addrEp1Out.toNat 5 { s with trnFifo := [] } = r at hafter hrun hown hdts
    refine ⟨r0, r1, r2, r3, r4, _, r, _, rfl, fun k b hk hb => ?_, fun hwritten => ?_, fun hunwritten => ?_,
      exec_callDisplayValues _ _ r, fun hcpu => ?_, fun hsie => ?_⟩
    · rw [← hread]
      exact readBytes_written (s := { s with trnFifo := [] }) hk hb
    · rw [hafter]
      exact afterRead_written (s := { o with trnFifo := [] }) fun k hk => by
        simpa [hram, Option.isSome_iff_ne_none] using hwritten k hk
    · refine ⟨_, hafter.trans (if_pos ((touchesUnwritten_iff _ _ _).2 ?_))⟩
      simpa [hram] using hunwritten
    · rw [hrun, rearmEp1Out_cpu (by simpa [hown] using hcpu)]
      simp [hdts]
    · rw [hrun, rearmEp1Out_sie (by simpa [hown] using hsie)]
      simp [hdts]

/-! ### A report sent back, R232 -/

/-- The twenty bits of a value that fits the wire. -/
theorem lowBits_fits {v : StoredValue} (h : v.toNat < 2 ^ 20) : (v.extractLsb' 0 20).setWidth pStoreBits = v := by
  refine BitVec.eq_of_toNat_eq ?_
  rw [BitVec.toNat_setWidth, BitVec.extractLsb'_toNat, Nat.shiftRight_zero, Nat.mod_eq_of_lt h]
  exact Nat.mod_eq_of_lt v.isLt

/-- R89 after R88: a value that fits the wire is read back. -/
theorem report_value0 {v0 : StoredValue} (v1 : StoredValue) (h : v0.toNat < 2 ^ 20) :
    decodeReport0 (encodeReport (wireValue v0) (wireValue v1)) = v0 := by
  rw [encodeReport_wireValue]
  have hlow : (v1.extractLsb' 0 4 ++ v0.extractLsb' 16 4 : Byte).extractLsb' 0 4 = v0.extractLsb' 16 4 :=
    BitVec.extractLsb'_append_eq_right
  have hjoin : v0.extractLsb' 16 4 ++ v0.extractLsb' 8 8 ++ v0.extractLsb' 0 8 = v0.extractLsb' 0 20 := by
    simp (disch := decide) only [BitVec.extractLsb'_append_extractLsb'_eq_extractLsb']
  simp only [decodeReport0, List.getD_cons_zero, List.getD_cons_succ]
  rw [hlow, hjoin]
  exact lowBits_fits h

theorem report_value1 (v0 : StoredValue) {v1 : StoredValue} (h : v1.toNat < 2 ^ 20) :
    decodeReport1 (encodeReport (wireValue v0) (wireValue v1)) = v1 := by
  rw [encodeReport_wireValue]
  have hhigh : (v1.extractLsb' 0 4 ++ v0.extractLsb' 16 4 : Byte).extractLsb' 4 4 = v1.extractLsb' 0 4 :=
    BitVec.extractLsb'_append_eq_left
  have hjoin : v1.extractLsb' 12 8 ++ v1.extractLsb' 4 8 ++ v1.extractLsb' 0 4 = v1.extractLsb' 0 20 := by
    simp (disch := decide) only [BitVec.extractLsb'_append_extractLsb'_eq_extractLsb']
  simp only [decodeReport1, List.getD_cons_zero, List.getD_cons_succ]
  rw [hhigh, hjoin]
  exact lowBits_fits h

/-- Settles O28. -/
theorem reportRoundTrip : Obligations.ReportRoundTrip := by
  intro s t u h0 h1 hen hcpu hnotify henu hqueue hbytes
  have ht : t = armReport s := by
    rw [exec_callNotifyNewValues, notifyNewValues, if_neg (by simp [hen]), if_neg (by simp [hcpu])] at hnotify
    exact (Host.Outcome.next.inj hnotify).symm
  have hstored : BytesAt t.ram s.cfg.addrEp1In.toNat (encodeReport (wireValue s.value0) (wireValue s.value1)) := by
    rw [ht, armReport_eq hcpu]
    exact (storedAt_setAll s _ _).1
  have hfound : BytesAt u.ram u.cfg.addrEp1Out.toNat (encodeReport (wireValue s.value0) (wireValue s.value1)) :=
    fun k hk => (hbytes k hk).trans (hstored k hk)
  have hread : readBytes { u with trnFifo := [] } u.cfg.addrEp1Out.toNat 5 =
      encodeReport (wireValue s.value0) (wireValue s.value1) := readBytes_of_bytesAt (s := { u with trnFifo := [] }) hfound
  have hrun : onEp1Out { u with trnFifo := [] } = rearmEp1Out (displayValues s.value0 s.value1
      (afterCoreRead u.cfg.addrEp1Out.toNat 5 { u with trnFifo := [] })) := by
    rw [onEp1Out, if_neg (by simp [henu])]
    simp only [pReportLen_eq, hread, report_value0 _ h0, report_value1 _ h1]
  refine ⟨_, exec_evUsbEp1Out hqueue, ?_, ?_⟩
  · rw [hrun]
    simp [displayValues_eq, valuesStored]
  · rw [hrun]
    simp [displayValues_eq, valuesStored]

/-! ### The dispatch, R92 -/

/-- Settles O34. -/
theorem dispatchIsTheTable : Obligations.DispatchIsTheTable := by
  intro p s
  obtain ⟨t, ht⟩ := dispatchSetup_completes p s
  exact ⟨t, ht, (exec_decodeSetup p s).trans (congrArg outcome ht)⟩

end Sys2Proof.Machine
end

section
/-! PROOFS. The completions of Endpoint 0 on their own in the queue, `spec/42_usb_ep0.md` R196 and R197: the end of a
read, the status IN, a stray completion, and the next chunk of a read. -/

namespace Sys2Proof.Machine

open Sys2Proof

/-! ### A completion alone in the queue, R259 -/

/-- The event word of the queue's only completion is that completion's handler, on the emptied queue. -/
theorem exec_usbEvent_single {i : Instr} {s : State} {ep : BitVec 4} {d : Dir} (hqueue : s.trnFifo = [(ep, d)])
    (hen : usbEventEnabled s i) : exec i s = outcome (route ep d { s with trnFifo := [] }) := by
  rw [exec_usbEvent hen, usbTransaction_cons hqueue, popTrn_single hqueue]
  cases h : route ep d { s with trnFifo := [] } with
  | error f => rfl
  | ok t => rw [thenDrain_ok (by simp [route_frame _ _ h])]

/-- `EV_USB_EP0_IN`. -/
theorem exec_evUsbEp0In {s : State} (hqueue : s.trnFifo = [(0, .inn)]) :
    exec .evUsbEp0In s = outcome (onEp0In { s with trnFifo := [] }) :=
  exec_usbEvent_single hqueue ((headIs_iff _ _ _).2 ⟨[], hqueue⟩)

/-- `EV_USB_EP0_OUT`: the token is read, then the count. -/
theorem exec_evUsbEp0Out {s : State} (hqueue : s.trnFifo = [(0, .out)]) (hpid : s.bdEp0Out.pid ≠ .setup) :
    exec .evUsbEp0Out s = outcome (onEp0Out (readField .ep0Out { s with trnFifo := [] })) := by
  have hroute : route 0 .out { s with trnFifo := [] } = onEp0Out (readField .ep0Out { s with trnFifo := [] }) :=
    if_neg hpid
  rw [exec_usbEvent_single (i := .evUsbEp0Out) hqueue ⟨(headIs_iff _ _ _).2 ⟨[], hqueue⟩, hpid⟩, hroute]

/-! ### `OnEp0In`, R196 -/

section
variable {s : State}

/-- In a read with bytes owed. -/
theorem onEp0In_read (hdir : s.ctlDir = .d2h) (howed : s.ctlRemaining ≠ 0) : onEp0In s = sendChunk s := by
  rw [onEp0In, if_pos hdir, if_pos howed]

/-- In a read with the zero-length packet owed. -/
theorem onEp0In_zlp (hdir : s.ctlDir = .d2h) (hsent : s.ctlRemaining = 0) (hzlp : s.ctlZlp = true) :
    onEp0In s = sendChunk { s with ctlZlp := false } := by
  rw [onEp0In, if_pos hdir, if_neg (by simp [hsent]), if_pos hzlp]

/-- At the end of a read. -/
theorem onEp0In_readDone (hdir : s.ctlDir = .d2h) (hsent : s.ctlRemaining = 0) (hzlp : s.ctlZlp = false) :
    onEp0In s = .ok { s with ctlDir := .none, ctlStatus := .statusOut } := by
  rw [onEp0In, if_pos hdir, if_neg (by simp [hsent]), if_neg (by simp [hzlp])]

/-- At a status IN. -/
theorem onEp0In_status (hdir : s.ctlDir ≠ .d2h) (hstatus : s.ctlStatus = .statusIn) :
    onEp0In s = .ok (applyAddress { s with ctlStatus := .none }) := by
  rw [onEp0In, if_neg hdir, if_pos hstatus]

/-- A stray completion. -/
theorem onEp0In_stray (hdir : s.ctlDir ≠ .d2h) (hstatus : s.ctlStatus ≠ .statusIn) : onEp0In s = .ok s := by
  rw [onEp0In, if_neg hdir, if_neg hstatus]

end

/-- R186: a pending address is applied and reported. -/
theorem applyAddress_some {s : State} {a : BitVec 7} (h : s.pendAddr = some a) :
    applyAddress s = emit (.addr a) { s with usbAddr := a, pendAddr := none } := by
  simp only [applyAddress, h]

/-- Without one the status stage leaves the address. -/
theorem applyAddress_none {s : State} (h : s.pendAddr = none) : applyAddress s = s := by
  simp only [applyAddress, h]

/-- Settles O36: `OnEp0In` outside a chunk, by the stage and the pending address. -/
theorem endpointZeroInStatus : Obligations.EndpointZeroInStatus := by
  intro s hqueue
  rw [exec_evUsbEp0In hqueue]
  refine ⟨fun hdir hsent hzlp => ?_, fun hdir hstatus a hpend => ?_, fun hdir hstatus hpend => ?_,
    fun hdir hstatus => ?_⟩
  · exact congrArg outcome (onEp0In_readDone (s := { s with trnFifo := [] }) hdir hsent hzlp)
  · rw [onEp0In_status (s := { s with trnFifo := [] }) hdir hstatus, applyAddress_some (by exact hpend)]
    rfl
  · rw [onEp0In_status (s := { s with trnFifo := [] }) hdir hstatus, applyAddress_none (by exact hpend)]
    rfl
  · exact congrArg outcome (onEp0In_stray (s := { s with trnFifo := [] }) hdir hstatus)

/-! ### The next chunk, R193 -/

/-- The bytes of the next chunk. -/
def nextChunk (s : State) : List Byte :=
  ((s.cfg.rom s.ctlSrcTable).drop s.ctlSrcOff.toNat).take (min s.ctlRemaining.toNat 32)

/-- Inside the table the chunk has the length `SendChunk` asks for. -/
theorem nextChunk_length {s : State} (hdir : s.ctlDir = .d2h) (h : TransferInv s) :
    (nextChunk s).length = min s.ctlRemaining.toNat 32 := by
  have := h.read hdir
  simp only [nextChunk, List.length_take, List.length_drop]
  omega

/-- A transfer inside its table arms its next chunk. -/
theorem sendChunk_eq {s : State} (hdir : s.ctlDir = .d2h) (hcpu : s.bdEp0In.own = .cpu) (h : TransferInv s) :
    sendChunk s = .ok (armedEp0In (BitVec.ofNat 10 (nextChunk s).length) s.ctlToggle { s with
      ram := s.ram.setAll s.cfg.addrEp0In.toNat (nextChunk s)
      ctlSrcOff := s.ctlSrcOff + BitVec.ofNat 16 (nextChunk s).length
      ctlRemaining := s.ctlRemaining - BitVec.ofNat 16 (nextChunk s).length
      ctlToggle := s.ctlToggle ^^^ 1 }) := by
  have hinside := h.read hdir
  have hlength := nextChunk_length hdir h
  rw [sendChunk_ok (by omega)]
  exact congrArg _ (armChunk_eq (bytes := nextChunk s) hcpu (by omega))

/-- `SendChunk` with nothing left is the empty packet. -/
theorem sendChunk_empty {s : State} (hdir : s.ctlDir = .d2h) (hcpu : s.bdEp0In.own = .cpu) (h : TransferInv s)
    (hsent : s.ctlRemaining = 0) :
    sendChunk s = .ok (armedEp0In 0 s.ctlToggle { s with ctlToggle := s.ctlToggle ^^^ 1 }) := by
  have hnil : nextChunk s = [] := by simp [nextChunk, hsent]
  simp [sendChunk_eq hdir hcpu h, hnil, Memory.setAll]

/-- Settles O37: the next chunk of the table, or the owed zero-length packet. -/
theorem endpointZeroInChunk : Obligations.EndpointZeroInChunk := by
  intro s hqueue hdir hcpu hinv
  have hpop : TransferInv { s with trnFifo := [] } := ⟨hinv.read, hinv.write⟩
  have hlength := nextChunk_length hdir hinv
  rw [exec_evUsbEp0In hqueue]
  refine ⟨fun howed => ⟨_, s.ram.setAll s.cfg.addrEp0In.toNat (nextChunk s), rfl, ?stored, ?run⟩, fun hsent hzlp => ?zlp⟩
  case stored =>
    exact storedAt_setAll _ _ _
  case run =>
    rw [onEp0In_read (s := { s with trnFifo := [] }) hdir howed,
      sendChunk_eq (s := { s with trnFifo := [] }) hdir hcpu hpop, ← hlength]
    rfl
  case zlp =>
    rw [onEp0In_zlp (s := { s with trnFifo := [] }) hdir hsent hzlp,
      sendChunk_empty (s := { s with trnFifo := [], ctlZlp := false }) hdir hcpu ⟨hinv.read, hinv.write⟩ hsent]
    rfl

/-! ### `OnEp0Out` outside a control write, R197 -/

section
variable {s : State}

/-- During a read or its status stage. -/
theorem handleEp0Out_read (h : s.ctlDir = .d2h ∨ (s.ctlDir = .none ∧ s.ctlStatus = .statusOut)) :
    handleEp0Out s = .ok (armEp0Out (endRead s)) := by
  have hwrite : s.ctlDir ≠ .h2d := by rcases h with h | ⟨h, -⟩ <;> simp [h]
  rw [handleEp0Out, if_neg hwrite, if_pos (h.imp_right And.right)]

/-- A stray completion. -/
theorem handleEp0Out_stray (hdir : s.ctlDir = .none) (hstatus : s.ctlStatus ≠ .statusOut) :
    handleEp0Out s = .ok (armEp0Out s) := by
  rw [handleEp0Out, if_neg (by simp [hdir]), if_neg (by simp [hdir, hstatus])]

/-- The end of a read. -/
theorem endRead_eq (s : State) : endRead s = { s with
    bdEp0In := if s.bdEp0In.own = .sie then reclaimed s.bdEp0In else s.bdEp0In
    trace := s.trace ++ (if s.bdEp0In.own = .sie then [.reclaim .ep0In] else [])
    ctlDir := .none, ctlStatus := .none, ctlZlp := false } := by
  rw [endRead, reclaimIfArmed_eq]
  rfl

/-- R198 outside a transfer that names a toggle: 0. -/
theorem expectedOutToggle_idle (hdir : s.ctlDir = .none) (hstatus : s.ctlStatus ≠ .statusOut) :
    expectedOutToggle s = 0 := by
  simp [expectedOutToggle, hdir, hstatus]

/-- R301, R198: the arm of an `EP0_OUT` the SIE owns. -/
theorem armEp0Out_sie (h : s.bdEp0Out.own = .sie) : armEp0Out s = modelFaulted .bdOwnership s :=
  arm_sie _ _ _ h

end

/-- Settles O38: `OnEp0Out` outside a control write, on a descriptor of the CPU and on one of the SIE. -/
theorem endpointZeroOutIdle : Obligations.EndpointZeroOutIdle := by
  intro s hqueue hpid
  rw [exec_evUsbEp0Out hqueue hpid, onEp0Out]
  refine ⟨fun hcpu hstage => ?read, fun hcpu hdir hstatus => ?stray, fun hsie hdir hstatus => ?owned⟩
  case read =>
    have hread : readField .ep0Out { s with trnFifo := [] } = { s with trnFifo := [] } := readField_cpu hcpu
    rw [hread, hread, handleEp0Out_read (by exact hstage), endRead_eq, armEp0Out_eq (by exact hcpu),
      expectedOutToggle_idle rfl (by simp)]
    rfl
  case stray =>
    have hread : readField .ep0Out { s with trnFifo := [] } = { s with trnFifo := [] } := readField_cpu hcpu
    rw [hread, hread, handleEp0Out_stray (by exact hdir) (by exact hstatus), armEp0Out_eq (by exact hcpu),
      expectedOutToggle_idle (by exact hdir) (by exact hstatus)]
    rfl
  case owned =>
    have hread : readField .ep0Out { s with trnFifo := [] } = modelFaulted .bdOwnership { s with trnFifo := [] } :=
      readField_sie hsie
    rw [hread, readField_sie (by exact hsie),
      handleEp0Out_stray (by exact hdir) (by exact hstatus), armEp0Out_sie (by exact hsie)]
    rfl

end Sys2Proof.Machine
end

section
/-! PROOFS. The HOST's packets, `spec/10_state.md` R47 to R49: what a SETUP, an OUT and an IN token find at their
descriptor. -/

namespace Sys2Proof.Machine

open Sys2Proof

section
variable {s : State} {ep : Endpoint} {bytes : List Byte}

/-! ### Packets to the block, R47 -/

/-- Lawful and no longer than the buffer: stored, counted, marked, handed back and queued. -/
theorem takeOut_lawful (p : Pid) (hinv : BuffersInv s) (hlength : bytes.length ≤ (epBuffer s.cfg (outBd ep)).2) :
    takeOut ep p true bytes s = .next (State.setBd (outBd ep)
      { s.bd (outBd ep) with cnt := BitVec.ofNat 10 bytes.length, pid := p, own := .cpu }
      { s with ram := s.ram.setAll (epBuffer s.cfg (outBd ep)).1 bytes
               trnFifo := s.trnFifo ++ [(epNumber ep, .out)]
               hostLog := s.hostLog ++ [.ack (outBd ep)] }) := by
  obtain ⟨hadr, -⟩ := hinv (outBd ep)
  have htop := epBuffer_inside s.cfg (outBd ep)
  rw [takeOut, if_neg (by simp), if_pos (by omega), completeOut, hadr]
  cases ep <;> rfl

/-- A packet that breaks the laws of R47 (log 15). -/
theorem takeOut_unlawful (p : Pid) : takeOut ep p false bytes s = .refused .unlawfulHostPacket := if_pos rfl

/-- R49: a CPU-owned descriptor. -/
theorem hostOutStep_nak (d : Toggle) (h : (s.bd (outBd ep)).own = .cpu) :
    hostOutStep ep d bytes s = .next (hostSees (.nak (outBd ep)) s) := if_pos h

/-- R49: a stalled descriptor. -/
theorem hostOutStep_stall (d : Toggle) (hsie : (s.bd (outBd ep)).own = .sie) (h : (s.bd (outBd ep)).stall = true) :
    hostOutStep ep d bytes s = .next (hostSees (.stall (outBd ep)) s) := by
  rw [hostOutStep, if_neg (by simp [hsie]), if_pos h]

/-- D41: an OUT of the other toggle. -/
theorem hostOutStep_dropped {d : Toggle} (hsie : (s.bd (outBd ep)).own = .sie) (h : (s.bd (outBd ep)).stall = false)
    (hcheck : s.cfg.sieDtsCheck = true) (hd : d ≠ (s.bd (outBd ep)).dts) :
    hostOutStep ep d bytes s = .next (hostSees (.ack (outBd ep)) s) := by
  rw [hostOutStep, if_neg (by simp [hsie]), if_neg (by simp [h]), if_pos ⟨hcheck, hd⟩]

/-- R47: an OUT of the expected toggle at an armed descriptor. -/
theorem hostOutStep_taken {d : Toggle} (hsie : (s.bd (outBd ep)).own = .sie) (h : (s.bd (outBd ep)).stall = false)
    (hd : s.cfg.sieDtsCheck = true → d = (s.bd (outBd ep)).dts) :
    hostOutStep ep d bytes s = takeOut ep .out (decide (bytes.length ≤ (s.bd (outBd ep)).cnt.toNat)) bytes s := by
  rw [hostOutStep, if_neg (by simp [hsie]), if_neg (by simp [h]), if_neg fun ⟨hcheck, hne⟩ => hne (hd hcheck)]

/-- R49: a SETUP at an `EP0_OUT` of the CPU. -/
theorem hostSetupStep_nak (h : s.bdEp0Out.own = .cpu) :
    hostSetupStep bytes s = .next (hostSees (.nak .ep0Out) s) := if_pos h

/-- R49: a SETUP at a stalled `EP0_OUT`. -/
theorem hostSetupStep_stall (hsie : s.bdEp0Out.own = .sie) (h : s.bdEp0Out.stall = true) :
    hostSetupStep bytes s = .next (hostSees (.stall .ep0Out) s) := by
  rw [hostSetupStep, if_neg (by simp [hsie]), if_pos h]

/-- R47: a SETUP at an armed `EP0_OUT`. -/
theorem hostSetupStep_taken (hsie : s.bdEp0Out.own = .sie) (h : s.bdEp0Out.stall = false) :
    hostSetupStep bytes s = takeOut .ep0 .setup (decide (bytes.length = 8)) bytes s := by
  rw [hostSetupStep, if_neg (by simp [hsie]), if_neg (by simp [h])]

end

/-- A SETUP fits `EP0_OUT`'s buffer. -/
theorem setup_fits (c : Config) {bytes : List Byte} (h : bytes.length = 8) :
    bytes.length ≤ (epBuffer c (outBd .ep0)).2 := by
  simp [epBuffer, outBd, h]

/-- Settles O48: the descriptor's owner, its stall, the toggle, the length decide in that order. -/
theorem hostPacketsArrive : Obligations.HostPacketsArrive := by
  intro s rest ep d bytes hinv
  have hinv' : BuffersInv { s with inputs := rest } := hinv
  refine ⟨fun hsie harmed => ⟨?out, ?setup, ?dropped, ?long, ?short⟩, fun hcpu => ⟨?nakOut, ?nakSetup⟩,
    fun hsie hstall => ⟨?stallOut, ?stallSetup⟩⟩
  case out =>
    intro hin hd hlength
    obtain ⟨-, hcnt⟩ := hinv (outBd ep)
    refine ⟨_, storedAt_setAll _ _ _, ?_⟩
    rw [step_agent hin, agentStep, hostOutStep_taken (by exact hsie) (by exact harmed) (by exact hd),
      decide_eq_true (by exact hlength)]
    exact takeOut_lawful .out hinv' (le_trans hlength hcnt)
  case setup =>
    rintro hin rfl hlength
    refine ⟨_, storedAt_setAll _ _ _, ?_⟩
    rw [step_agent hin, agentStep, hostSetupStep_taken (by exact hsie) (by exact harmed),
      decide_eq_true (by exact hlength),
      takeOut_lawful .setup hinv' (setup_fits s.cfg hlength), hlength]
    rfl
  case dropped =>
    intro hin hcheck hd
    rw [step_agent hin, agentStep, hostOutStep_dropped (by exact hsie) (by exact harmed) (by exact hcheck) (by exact hd)]
    rfl
  case long =>
    intro hin hd hlength
    rw [step_agent hin, agentStep, hostOutStep_taken (by exact hsie) (by exact harmed) (by exact hd), 
      decide_eq_false (by exact Nat.not_le.2 hlength)]
    exact takeOut_unlawful .out
  case short =>
    rintro hin rfl hlength
    rw [step_agent hin, agentStep, hostSetupStep_taken (by exact hsie) (by exact harmed), decide_eq_false hlength]
    exact takeOut_unlawful .setup
  case nakOut =>
    intro hin
    rw [step_agent hin, agentStep, hostOutStep_nak d (by exact hcpu)]
    rfl
  case nakSetup =>
    rintro hin rfl
    rw [step_agent hin, agentStep, hostSetupStep_nak (by exact hcpu)]
    rfl
  case stallOut =>
    intro hin
    rw [step_agent hin, agentStep, hostOutStep_stall d (by exact hsie) (by exact hstall)]
    rfl
  case stallSetup =>
    rintro hin rfl
    rw [step_agent hin, agentStep, hostSetupStep_stall (by exact hsie) (by exact hstall)]
    rfl

/-! ### Packets to the HOST, R48 -/

/-- An armed IN descriptor whose bytes are written: the HOST reads them with its toggle. -/
theorem hostInStep_read {s : State} {ep : Endpoint} {bytes : List Byte}
    (hadr : (s.bd (inBd ep)).adr.toNat = (epBuffer s.cfg (inBd ep)).1)
    (hcnt : (s.bd (inBd ep)).cnt.toNat ≤ (epBuffer s.cfg (inBd ep)).2)
    (hsie : (s.bd (inBd ep)).own = .sie) (h : (s.bd (inBd ep)).stall = false)
    (hlength : bytes.length = (s.bd (inBd ep)).cnt.toNat) (hbytes : BytesAt s.ram (epBuffer s.cfg (inBd ep)).1 bytes) :
    hostInStep ep s = .next (State.setBd (inBd ep) { s.bd (inBd ep) with pid := .inn, own := .cpu }
      { s with trnFifo := s.trnFifo ++ [(epNumber ep, .inn)]
               hostLog := s.hostLog ++ [.data (inBd ep) (s.bd (inBd ep)).dts bytes] }) := by
  have htop := epBuffer_inside s.cfg (inBd ep)
  have hread := readBytes_of_bytesAt hbytes
  have hafter (t : State) (ht : t.ram = s.ram) :
      Machine.afterRead (epBuffer s.cfg (inBd ep)).1 bytes.length t = t :=
    afterRead_written fun k hk => by rw [ht, hbytes k hk]; simp [hk]
  rw [hostInStep, if_neg (by simp [hsie]), if_neg (by simp [h]), if_pos (by omega), completeIn]
  simp only [hadr, ← hlength, hread]
  rw [hafter (hostSees _ s) rfl]
  cases ep <;> rfl

/-- Settles O49: the owner, then the stall decide; an armed descriptor hands over its written bytes. -/
theorem hostReadsPacket : Obligations.HostReadsPacket := by
  intro s rest ep hin hinv
  rw [step_agent hin, agentStep]
  refine ⟨fun hsie harmed bytes hlength hbytes => ?_, fun hcpu => if_pos hcpu, fun hsie hstall => ?_⟩
  · obtain ⟨hadr, hcnt⟩ := hinv (inBd ep)
    exact hostInStep_read (s := { s with inputs := rest }) hadr hcnt hsie harmed hlength hbytes
  · have hcpu : (s.bd (inBd ep)).own ≠ .cpu := by simp [hsie]
    exact (if_neg hcpu).trans (if_pos hstall)

end Sys2Proof.Machine
end

section
/-! PROOFS. The drain of the completion queue, `spec/60_exceptions.md` R259: no handler reads the queue, so handling the
oldest completion on its own and then the rest is handling them all. -/

namespace Sys2Proof.Machine

open Sys2Proof

/-- The state with this queue of completions. -/
def withQueue (q : List (BitVec 4 × Dir)) (s : State) : State := { s with trnFifo := q }

/-! ### No operation reads the queue: each commutes with replacing it -/

section
variable (q : List (BitVec 4 × Dir)) (s : State)

/-- R250, R253. -/
theorem raiseAll_withQueue (cs : List Cause) : withQueue q (raiseAll cs s) = raiseAll cs (withQueue q s) := by
  induction cs generalizing s with
  | nil => rfl
  | cons c cs ih =>
    rw [raiseAll, ih]
    cases c <;> rfl

/-- R53. -/
theorem afterRead_withQueue (a n : Nat) : withQueue q (afterRead a n s) = afterRead a n (withQueue q s) := by
  rw [afterRead, apply_ite (withQueue q)]
  rfl

/-- R61, R301. -/
theorem afterCoreRead_withQueue (a n : Nat) :
    withQueue q (afterCoreRead a n s) = afterCoreRead a n (withQueue q s) := by
  rw [afterCoreRead, afterRead_withQueue, apply_ite (withQueue q)]
  rfl

/-- R301. -/
theorem readField_withQueue (e : BdId) : withQueue q (readField e s) = readField e (withQueue q s) := by
  rw [readField, apply_ite (withQueue q)]
  cases e <;> rfl

/-- R62. -/
theorem coreWrite_withQueue (a : Nat) (bs : List Byte) :
    withQueue q (coreWrite a bs s) = coreWrite a bs (withQueue q s) := by
  rw [coreWrite, apply_ite (withQueue q)]
  rfl

/-- R36. -/
theorem arm_withQueue (e : BdId) (adr : Word16) (cnt : BitVec 10) (dts : Toggle) :
    withQueue q (arm e adr cnt dts s) = arm e adr cnt dts (withQueue q s) := by
  rw [arm, apply_ite (withQueue q)]
  cases e <;> rfl

/-- R36. -/
theorem stall_withQueue (e : BdId) : withQueue q (stall e s) = stall e (withQueue q s) := by
  rw [stall, apply_ite (withQueue q)]
  cases e <;> rfl

/-- R36. -/
theorem reclaimIfArmed_withQueue (e : BdId) : withQueue q (reclaimIfArmed e s) = reclaimIfArmed e (withQueue q s) := by
  rw [reclaimIfArmed, apply_ite (withQueue q)]
  cases e <;> rfl

/-! ### The engine and the display, R120 to R150 -/

/-- R27. -/
theorem sendByte_withQueue (a : Nat) : withQueue q (sendByte a s) = sendByte a (withQueue q s) := by
  rw [sendByte, sendByte, ← afterCoreRead_withQueue]
  rfl

/-- R120. -/
theorem startExchange_withQueue (buf : Word16) (len : Byte) (cb : Callback) :
    withQueue q (startExchange buf len cb s) = startExchange buf len cb (withQueue q s) := by
  rw [startExchange, apply_ite (withQueue q), startAccepted, sendByte_withQueue, raiseAll_withQueue]
  rfl

/-- R145. -/
theorem initializeChip_withQueue : withQueue q (initializeChip s) = initializeChip (withQueue q s) := by
  rw [initializeChip, startExchange_withQueue, coreWrite_withQueue]
  rfl

/-- R148. -/
theorem terminate_withQueue : withQueue q (terminate s) = terminate (withQueue q s) := by
  rw [terminate, startExchange_withQueue, coreWrite_withQueue]
  rfl

/-- R150. -/
theorem displayValues_withQueue (v0 v1 : StoredValue) :
    withQueue q (displayValues v0 v1 s) = displayValues v0 v1 (withQueue q s) := by
  rw [displayValues, startExchange_withQueue, storeValues, coreWrite_withQueue]
  rfl

/-! ### Endpoint 1, R226 to R230 -/

/-- Endpoint 1's enable written and reported (R228, R229). -/
def switched (b : Bool) (s : State) : State := emit (.ep1Enable b) { s with ep1Enabled := b }

/-- R228, R229. -/
theorem switched_withQueue (b : Bool) : withQueue q (switched b s) = switched b (withQueue q s) := rfl

/-- R228. -/
theorem ep1Enable_switched : ep1Enable s = initializeChip (switched true
    (arm .ep1Out s.cfg.addrEp1Out (BitVec.ofNat 10 pReportLen) 0 { s with ep1OutDts := 0, ep1InDts := 0 })) := rfl

/-- R229. -/
theorem ep1Disable_switched :
    ep1Disable s = switched false (reclaimIfArmed .ep1In (reclaimIfArmed .ep1Out (terminate s))) := rfl

/-- R228. -/
theorem ep1Enable_withQueue : withQueue q (ep1Enable s) = ep1Enable (withQueue q s) := by
  rw [ep1Enable_switched, initializeChip_withQueue, switched_withQueue, arm_withQueue, ep1Enable_switched]
  rfl

/-- R229. -/
theorem ep1Disable_withQueue : withQueue q (ep1Disable s) = ep1Disable (withQueue q s) := by
  rw [ep1Disable_switched, switched_withQueue, reclaimIfArmed_withQueue, reclaimIfArmed_withQueue,
    terminate_withQueue, ep1Disable_switched]

/-- R226. -/
theorem rearmEp1Out_withQueue : withQueue q (rearmEp1Out s) = rearmEp1Out (withQueue q s) := by
  rw [rearmEp1Out, arm_withQueue]
  rfl

/-- R226. -/
theorem onEp1Out_withQueue : withQueue q (onEp1Out s) = onEp1Out (withQueue q s) := by
  rw [onEp1Out, apply_ite (withQueue q), rearmEp1Out_withQueue, displayValues_withQueue, afterCoreRead_withQueue]
  rfl

/-- R230. -/
theorem onEp1In_withQueue : withQueue q (onEp1In s) = onEp1In (withQueue q s) := by
  rw [onEp1In, apply_ite (withQueue q)]
  rfl

/-! ### The control endpoint, R171 to R198 -/

/-- R171. -/
theorem cancelTransfer_withQueue : withQueue q (cancelTransfer s) = cancelTransfer (withQueue q s) := by
  rw [cancelTransfer_eq, cancelTransfer_eq]
  rfl

/-- R198. -/
theorem armEp0Out_withQueue : withQueue q (armEp0Out s) = armEp0Out (withQueue q s) := arm_withQueue ..

/-- R179. -/
theorem statusIn_withQueue : withQueue q (statusIn s) = statusIn (withQueue q s) := by
  rw [statusIn, statusIn, ← arm_withQueue]
  rfl

/-- R192. -/
theorem rejectRequest_withQueue (c : FatalCause) :
    withQueue q (rejectRequest c s) = rejectRequest c (withQueue q s) := by
  rw [rejectRequest, rejectRequest, ← stall_withQueue]
  rfl

/-- The cursor after a chunk of `n` bytes (R193). -/
def cursorMoved (n : Nat) (s : State) : State :=
  { s with ctlSrcOff := s.ctlSrcOff + BitVec.ofNat 16 n, ctlRemaining := s.ctlRemaining - BitVec.ofNat 16 n }

/-- R193. -/
theorem armChunk_withQueue (bytes : List Byte) : withQueue q (armChunk bytes s) = armChunk bytes (withQueue q s) := by
  have harmed := (arm_withQueue q
      (cursorMoved bytes.length (coreWrite s.cfg.addrEp0In.toNat bytes s)) .ep0In _ (BitVec.ofNat 10 bytes.length) _).trans
    (congrArg (fun w => arm .ep0In (cursorMoved bytes.length w).cfg.addrEp0In (BitVec.ofNat 10 bytes.length)
      (cursorMoved bytes.length w).ctlToggle (cursorMoved bytes.length w)) (coreWrite_withQueue q s ..))
  exact congrArg (fun a => { a with ctlToggle := a.ctlToggle ^^^ 1 }) harmed

/-- R193: the chunk read, then armed. -/
theorem sendChunk_map : sendChunk s =
    (romRead s.cfg s.ctlSrcTable s.ctlSrcOff.toNat (min s.ctlRemaining.toNat pEp0Max)).map (armChunk · s) := by
  unfold sendChunk
  cases romRead s.cfg s.ctlSrcTable s.ctlSrcOff.toNat (min s.ctlRemaining.toNat pEp0Max) <;> rfl

/-- A handler that completes. -/
theorem map_ok_withQueue : (Except.ok s : Except Fault State).map (withQueue q) = .ok (withQueue q s) := rfl

/-- Two operations one after the other. -/
theorem map_map_withQueue {α : Type} {f g : α → State} {h : α → α} (x : Except Fault α)
    (hf : ∀ a, withQueue q (f a) = g (h a)) : (x.map f).map (withQueue q) = (x.map h).map g := by
  cases x with
  | error e => rfl
  | ok a => exact congrArg Except.ok (hf a)

/-- R193. -/
theorem sendChunk_withQueue : (sendChunk s).map (withQueue q) = sendChunk (withQueue q s) := by
  rw [sendChunk_map, sendChunk_map,
    map_map_withQueue (g := (armChunk · (withQueue q s))) (h := id) q _ (armChunk_withQueue q s), Except.map_id]
  rfl

/-- R178. -/
theorem startControlRead_withQueue (d : DescId) (wLength : Word16) :
    (startControlRead d wLength s).map (withQueue q) = startControlRead d wLength (withQueue q s) :=
  sendChunk_withQueue ..

/-- R195: the sink that displays. -/
theorem setReportSink_shown {m : Word16} (h : ¬(s.cfg.setReportSink = .discard ∨ m.toNat < 5)) :
    setReportSink m s =
      displayValues (decodeReport0 (readBytes s s.cfg.addrBufSetrep.toNat pReportLen))
        (decodeReport1 (readBytes s s.cfg.addrBufSetrep.toNat pReportLen))
        (afterCoreRead s.cfg.addrBufSetrep.toNat pReportLen s) := by
  obtain ⟨hsink, hlong⟩ := not_or.1 h
  unfold setReportSink
  split
  next hdiscard => exact absurd hdiscard hsink
  next => exact if_pos (Nat.not_lt.1 hlong)

/-- R195. -/
theorem setReportSink_withQueue (m : Word16) :
    withQueue q (setReportSink m s) = setReportSink m (withQueue q s) := by
  by_cases h : s.cfg.setReportSink = .discard ∨ m.toNat < 5
  · rw [setReportSink_ignored h, setReportSink_ignored (by exact h)]
  · rw [setReportSink_shown s h, setReportSink_shown _ (by exact h), displayValues_withQueue, afterCoreRead_withQueue]
    rfl

/-- R195. -/
theorem finishWriteData_withQueue (c n : Nat) :
    withQueue q (finishWriteData c n s) = finishWriteData c n (withQueue q s) := by
  rw [finishWriteData, apply_ite (withQueue q), statusIn_withQueue, setReportSink_withQueue]
  rfl

/-- R195: both accesses inside the space, then the bookkeeping. -/
theorem controlWriteData_ite (c : Nat) : controlWriteData c s =
    if s.cfg.addrEp0Out.toNat + min c s.ctlRemaining.toNat ≤ 65536 ∧
        s.cfg.addrBufSetrep.toNat + s.ctlDst.toNat + min c s.ctlRemaining.toNat ≤ 65536 then
      .ok (finishWriteData c (min c s.ctlRemaining.toNat)
        (coreWrite (s.cfg.addrBufSetrep.toNat + s.ctlDst.toNat)
          (readBytes s s.cfg.addrEp0Out.toNat (min c s.ctlRemaining.toNat))
          (afterCoreRead s.cfg.addrEp0Out.toNat (min c s.ctlRemaining.toNat) s)))
    else .error .addressPastTop := by
  unfold controlWriteData memRead memWrite
  by_cases hread : s.cfg.addrEp0Out.toNat + min c s.ctlRemaining.toNat ≤ 65536
  · by_cases hwrite : s.cfg.addrBufSetrep.toNat + s.ctlDst.toNat + min c s.ctlRemaining.toNat ≤ 65536
    · simp [hread, hwrite]
    · simp [hread, hwrite]
  · simp [hread]

/-- R195. -/
theorem controlWriteData_withQueue (c : Nat) :
    (controlWriteData c s).map (withQueue q) = controlWriteData c (withQueue q s) := by
  rw [controlWriteData_ite, apply_ite (Except.map (withQueue q)), map_ok_withQueue, finishWriteData_withQueue,
    coreWrite_withQueue, afterCoreRead_withQueue, controlWriteData_ite]
  rfl

/-- R186. -/
theorem applyAddress_withQueue : withQueue q (applyAddress s) = applyAddress (withQueue q s) := by
  rcases h : s.pendAddr with _ | a
  · rw [applyAddress_none h, applyAddress_none (by exact h)]
  · rw [applyAddress_some h, applyAddress_some (by exact h)]
    rfl

/-- R196. -/
theorem onEp0In_withQueue : (onEp0In s).map (withQueue q) = onEp0In (withQueue q s) := by
  simp only [onEp0In, apply_ite (Except.map (withQueue q)), sendChunk_withQueue, map_ok_withQueue, applyAddress_withQueue]
  rfl

/-- R197. -/
theorem endRead_withQueue : withQueue q (endRead s) = endRead (withQueue q s) := by
  rw [endRead_eq, endRead_eq]
  rfl

/-- R197: the control write's data or the end of a read, then the arm. -/
theorem handleEp0Out_map : handleEp0Out s =
    if s.ctlDir = .h2d then (controlWriteData s.bdEp0Out.cnt.toNat s).map armEp0Out
    else if s.ctlDir = .d2h ∨ s.ctlStatus = .statusOut then .ok (armEp0Out (endRead s))
    else .ok (armEp0Out s) := by
  unfold handleEp0Out
  cases controlWriteData s.bdEp0Out.cnt.toNat s <;> rfl

/-- R197. -/
theorem handleEp0Out_withQueue : (handleEp0Out s).map (withQueue q) = handleEp0Out (withQueue q s) := by
  simp only [handleEp0Out_map, apply_ite (Except.map (withQueue q)),
    map_map_withQueue (g := armEp0Out) (h := withQueue q) q _ (armEp0Out_withQueue q), controlWriteData_withQueue,
    map_ok_withQueue, armEp0Out_withQueue, endRead_withQueue]
  rfl

/-! ### The requests, R173 to R190 -/

/-- R182. -/
theorem getDescString_withQueue (index : Byte) (wLength : Word16) :
    (getDescString index wLength s).map (withQueue q) = getDescString index wLength (withQueue q s) := by
  simp only [getDescString, apply_ite (Except.map (withQueue q)), startControlRead_withQueue, map_ok_withQueue,
    rejectRequest_withQueue]

/-- R183. -/
theorem getDescQualifier_withQueue : withQueue q (getDescQualifier s) = getDescQualifier (withQueue q s) := by
  rw [getDescQualifier, apply_ite (withQueue q), getDescQualifier, ← stall_withQueue]
  rfl

/-- R185. -/
theorem setAddressRequest_withQueue (v : Word16) :
    withQueue q (setAddressRequest v s) = setAddressRequest v (withQueue q s) := by
  rw [setAddressRequest, apply_ite (withQueue q), rejectRequest_withQueue, statusIn_withQueue]
  rfl

/-- R187. -/
theorem setConfigurationRequest_withQueue (cv : Byte) :
    withQueue q (setConfigurationRequest cv s) = setConfigurationRequest cv (withQueue q s) := by
  have hoff : withQueue q { ep1Disable s with configured := false } =
      { ep1Disable (withQueue q s) with configured := false } :=
    congrArg (fun r => { r with configured := false }) (ep1Disable_withQueue q s)
  have hon : withQueue q { ep1Enable s with configured := true } =
      { ep1Enable (withQueue q s) with configured := true } :=
    congrArg (fun r => { r with configured := true }) (ep1Enable_withQueue q s)
  simp only [setConfigurationRequest, apply_ite (withQueue q), statusIn_withQueue, rejectRequest_withQueue, hoff, hon]
  rfl

/-- R188. -/
theorem setInterfaceRequest_withQueue (v : Word16) :
    withQueue q (setInterfaceRequest v s) = setInterfaceRequest v (withQueue q s) := by
  rw [setInterfaceRequest, apply_ite (withQueue q), rejectRequest_withQueue, statusIn_withQueue]
  rfl

/-- R190. -/
theorem setReportRequest_withQueue (ty : Byte) :
    withQueue q (setReportRequest ty s) = setReportRequest ty (withQueue q s) := by
  rw [setReportRequest, apply_ite (withQueue q), rejectRequest_withQueue]
  rfl

/-- R173 to R177. -/
theorem dispatchSetup_withQueue (p : SetupPacket) :
    (dispatchSetup p s).map (withQueue q) = dispatchSetup p (withQueue q s) := by
  simp only [dispatchSetup, stdDevice, stdInterface, stdEndpoint, classInterface, getDescriptorOnDevice, getDescDevice,
    getDescConfig, getDescReport, apply_ite (Except.map (withQueue q)), startControlRead_withQueue,
    getDescString_withQueue, map_ok_withQueue, getDescQualifier_withQueue, setAddressRequest_withQueue,
    setConfigurationRequest_withQueue, setInterfaceRequest_withQueue, setReportRequest_withQueue, statusIn_withQueue,
    rejectRequest_withQueue]

/-- R172: the packet's request, then the arm. -/
theorem onSetup_map : onSetup s =
    (dispatchSetup (.ofBytes (readBytes s s.cfg.addrEp0Out.toNat 8))
      (cancelTransfer (afterCoreRead s.cfg.addrEp0Out.toNat 8 s))).map armEp0Out := by
  unfold onSetup
  dsimp only
  cases dispatchSetup (.ofBytes (readBytes s s.cfg.addrEp0Out.toNat 8))
    (cancelTransfer (afterCoreRead s.cfg.addrEp0Out.toNat 8 s)) <;> rfl

/-- R172. -/
theorem onSetup_withQueue : (onSetup s).map (withQueue q) = onSetup (withQueue q s) := by
  rw [onSetup_map, map_map_withQueue (g := armEp0Out) (h := withQueue q) q _ (armEp0Out_withQueue q),
    dispatchSetup_withQueue, cancelTransfer_withQueue, afterCoreRead_withQueue, onSetup_map]
  rfl

/-- R260. -/
theorem route_withQueue (ep : BitVec 4) (d : Dir) :
    (route ep d s).map (withQueue q) = route ep d (withQueue q s) := by
  cases d with
  | out =>
    simp only [route, onEp0Out, apply_ite (Except.map (withQueue q)), onSetup_withQueue, handleEp0Out_withQueue,
      readField_withQueue, map_ok_withQueue, onEp1Out_withQueue]
    rfl
  | inn =>
    simp only [route, apply_ite (Except.map (withQueue q)), onEp0In_withQueue, map_ok_withQueue, onEp1In_withQueue]

end

/-! ### The queue, R259 and R261 -/

/-- The dispatcher's word of the queue is enabled. -/
theorem usbEventEnabled_of_usbEvent {s : State} {i : Instr} (h : usbEvent s = some i) : usbEventEnabled s i := by
  rcases hqueue : s.trnFifo with _ | ⟨⟨ep, d⟩, rest⟩
  · rw [usbEvent, hqueue] at h
    exact absurd h nofun
  · have hhead : headIs ep d s = true := (headIs_iff _ _ _).2 ⟨rest, hqueue⟩
    rw [usbEvent_cons hqueue] at h
    obtain rfl := Option.some.inj h
    have hinn : d ≠ .out → d = .inn := by cases d <;> simp
    have hdir : dirOf (dirBit d) = d := by cases d <;> rfl
    split_ifs with h0 hd hpid h1 hd
    · exact ⟨h0 ▸ hd ▸ hhead, hpid⟩
    · exact ⟨h0 ▸ hd ▸ hhead, hpid⟩
    · rwa [h0, hinn hd] at hhead
    · rwa [h1, hd] at hhead
    · rwa [h1, hinn hd] at hhead
    · rwa [← hdir] at hhead

/-- Whether a USB event word is enabled depends on the oldest completion alone. -/
theorem usbEventEnabled_oldest {s : State} {i : Instr} {e : BitVec 4 × Dir} {rest : List (BitVec 4 × Dir)}
    (hqueue : s.trnFifo = e :: rest) (h : usbEventEnabled s i) : usbEventEnabled { s with trnFifo := [e] } i := by
  have hhead (ep : BitVec 4) (d : Dir) : headIs ep d { s with trnFifo := [e] } = headIs ep d s := by
    rw [headIs, headIs, hqueue]
    rfl
  cases i <;> simpa only [usbEventEnabled, hhead] using h

/-- A drained queue is empty. -/
theorem drain_empties (l : List (BitVec 4 × Dir)) {s t : State} (h : drain l s = .ok t) (hs : s.trnFifo = l) :
    t.trnFifo = [] := by
  induction l generalizing s with
  | nil =>
    obtain rfl := Except.ok.inj h
    exact hs
  | cons e rest ih =>
    rw [drain] at h
    cases hroute : route e.1 e.2 { s with trnFifo := rest } with
    | error f => simp [hroute] at h
    | ok u =>
      rw [hroute] at h
      exact ih h (by simp [route_frame _ _ hroute])

/-- What completes is the state it completes with. -/
theorem outcome_next {r : Except Fault State} {t : State} (h : outcome r = .next t) : r = .ok t := by
  cases r with
  | error f => exact absurd h nofun
  | ok u => exact congrArg Except.ok (Host.Outcome.next.inj h)

/-- Settles O46: the oldest completion's handler does not see the queue, and the rest is drained from the state it
leaves. -/
theorem queueDrainsInOrder : Obligations.QueueDrainsInOrder := by
  refine ⟨fun s t i hi h => ?_, fun s t e e' rest i j hqueue hi hone hj => ?_⟩
  · rw [exec_usbEvent (usbEventEnabled_of_usbEvent hi)] at h
    exact drain_empties _ (outcome_next h) rfl
  · have hen := usbEventEnabled_of_usbEvent hi
    have hlone : route e.1 e.2 { s with trnFifo := [] } = .ok t :=
      outcome_next ((exec_usbEvent_single (s := { s with trnFifo := [e] }) rfl
        (usbEventEnabled_oldest hqueue hen)).symm.trans hone)
    have hroute : route e.1 e.2 (popTrn s) = .ok { t with trnFifo := e' :: rest } := by
      rw [popTrn, hqueue, List.tail_cons]
      exact (route_withQueue (e' :: rest) { s with trnFifo := [] } e.1 e.2).symm.trans (congrArg _ hlone)
    calc exec i s
      _ = outcome (thenDrain (route e.1 e.2 (popTrn s))) := by rw [exec_usbEvent hen, usbTransaction_cons hqueue]
      _ = outcome (usbTransaction { t with trnFifo := e' :: rest }) := by rw [hroute]; rfl
      _ = exec j { t with trnFifo := e' :: rest } := (exec_usbEvent (usbEventEnabled_of_usbEvent hj)).symm

end Sys2Proof.Machine
end

section
/-! PROOFS. The output lines and the control stage, `spec/10_state.md` R26, R35, R42 and `spec/42_usb_ep0.md` R170: the
levels, their reports, and the stage each completion of Endpoint 0 leaves. -/

namespace Sys2Proof.Machine

open Sys2Proof

/-! ### The levels, R26 and R42 -/

/-- D12. -/
theorem csLevel_active_iff (s : State) : csLevel s = s.cfg.csActiveLevel ↔ s.spiCs = true := by
  unfold csLevel
  cases s.spiCs <;> cases s.cfg.csActiveLevel <;> simp

/-- D13. -/
theorem indicatorLevel_iff (s : State) : indicatorLevel s = s.cfg.indicatorLevel ↔ s.fatal = false := by
  unfold indicatorLevel
  cases s.fatal <;> cases s.cfg.indicatorLevel <;> simp

/-- The level of chip-select is that of its assertion. -/
theorem csLevel_congr {s t : State} (hcfg : t.cfg = s.cfg) (h : t.spiCs = s.spiCs) : csLevel t = csLevel s := by
  rw [csLevel, csLevel, hcfg, h]

/-- The indicator's level is that of the fatal signal. -/
theorem indicatorLevel_congr {s t : State} (hcfg : t.cfg = s.cfg) (h : t.fatal = s.fatal) :
    indicatorLevel t = indicatorLevel s := by
  rw [indicatorLevel, indicatorLevel, hcfg, h]

/-- A step reports a change of a level, and the indicator does not turn back. -/
theorem step_levels {s t : State} (h : step s = .next t) :
    (∃ new, t.trace = s.trace ++ new ∧ (csLevel t ≠ csLevel s → .cs t.spiCs ∈ new) ∧
      (indicatorLevel t ≠ indicatorLevel s → ∃ c, .fatal c ∈ new)) ∧
    (indicatorLevel s ≠ s.cfg.indicatorLevel → indicatorLevel t = indicatorLevel s) := by
  have hlogged := step_logged h
  obtain ⟨hcfg, -⟩ := hlogged.constants
  obtain ⟨hsticky, -, -⟩ := hlogged.grows
  obtain ⟨new, htrace, hcs, -, -, -, hfatal⟩ := hlogged.reported
  refine ⟨⟨new, htrace, fun hne => hcs (hne ∘ csLevel_congr hcfg), fun hne => hfatal (hne ∘ indicatorLevel_congr hcfg)⟩,
    fun hoff => ?_⟩
  have hraised : s.fatal = true := by simpa using mt (indicatorLevel_iff s).2 hoff
  exact indicatorLevel_congr hcfg ((hsticky hraised).trans hraised.symm)

/-! ### The stage, R35 -/

section
variable {s : State}

theorem stage_dataStageWrite_iff : stage s = .dataStageWrite ↔ s.ctlDir = .h2d := by
  cases hdir : s.ctlDir
  case none => simp only [stage, hdir]; split <;> simp
  all_goals simp [stage, hdir]

theorem stage_dataStageRead_iff : stage s = .dataStageRead ↔ s.ctlDir = .d2h := by
  cases hdir : s.ctlDir
  case none => simp only [stage, hdir]; split <;> simp
  all_goals simp [stage, hdir]

theorem stage_statusStage_iff : stage s = .statusStage ↔ s.ctlDir = .none ∧ s.ctlStatus ≠ .none := by
  cases hdir : s.ctlDir <;> simp [stage, hdir]

theorem stage_idle_iff : stage s = .idle ↔ s.ctlDir = .none ∧ s.ctlStatus = .none := by
  cases hdir : s.ctlDir <;> simp [stage, hdir]

end

/-- The stage of an answered operation is that of its direction and status. -/
theorem stage_congr {s t : State} (hdir : t.ctlDir = s.ctlDir) (hstatus : t.ctlStatus = s.ctlStatus) :
    stage t = stage s := by
  rw [stage, stage, hdir, hstatus]

/-! ### After a Setup, R170 to R194 -/

/-- The stage is the one its request leaves, and a status stage is a status IN. -/
def LeavesStage (g : Stage) (t : State) : Prop := stage t = g ∧ (stage t = .statusStage → t.ctlStatus = .statusIn)

section
variable {s t : State}

/-- R178: a read begins its data stage. -/
theorem startControlRead_stage {d : DescId} {len : Word16} (h : startControlRead d len s = .ok t) :
    LeavesStage .dataStageRead t := by
  have hdir : t.ctlDir = .d2h := by simp [sendChunk_frame h]
  have hstage := stage_dataStageRead_iff.2 hdir
  exact ⟨hstage, fun hs => absurd (hstage.symm.trans hs) nofun⟩

/-- R179: the status stage of an accepted request. -/
theorem statusIn_stage (hdir : s.ctlDir = .none) : LeavesStage .statusStage (statusIn s) :=
  ⟨stage_statusStage_iff.2 ⟨by simpa using hdir, by simp [statusIn]⟩, fun _ => rfl⟩

/-- A request that is over. -/
theorem LeavesStage.idle (h : stage t = .idle) : LeavesStage .idle t := ⟨h, fun hs => absurd (h.symm.trans hs) nofun⟩

/-- R192: a rejected request. -/
theorem rejectRequest_stage (c : FatalCause) (hidle : stage s = .idle) : LeavesStage .idle (rejectRequest c s) :=
  .idle ((stage_congr (by simp) (by simp)).trans hidle)

/-- R182. -/
theorem getDescString_stage {index : Byte} {len : Word16} (hidle : stage s = .idle)
    (h : getDescString index len s = .ok t) :
    LeavesStage (if index.toNat ≤ 2 then .dataStageRead else .idle) t := by
  unfold getDescString at h
  split_ifs at h with h0 h1 h2
  · subst h0; exact startControlRead_stage h
  · subst h1; exact startControlRead_stage h
  · subst h2; exact startControlRead_stage h
  · rw [if_neg (by bv_omega), ← Except.ok.inj h]
    exact rejectRequest_stage _ hidle

/-- R183. -/
theorem getDescQualifier_stage (hidle : stage s = .idle) : LeavesStage .idle (getDescQualifier s) :=
  .idle ((stage_congr (by simp) (by simp)).trans hidle)

/-- R185. -/
theorem setAddressRequest_stage (v : Word16) (hidle : stage s = .idle) :
    LeavesStage (if v.toNat < 128 then .statusStage else .idle) (setAddressRequest v s) := by
  obtain ⟨hdir, -⟩ := stage_idle_iff.1 hidle
  unfold setAddressRequest
  by_cases hv : v.toNat < 128
  · rw [if_pos hv, if_neg (by simpa using hv)]
    exact statusIn_stage hdir
  · rw [if_neg hv, if_pos (by simpa using hv)]
    exact rejectRequest_stage _ hidle

/-- R187. -/
theorem setConfigurationRequest_stage (cv : Byte) (hidle : stage s = .idle) :
    LeavesStage (if cv = 0 ∨ cv = s.cfg.configValue then .statusStage else .idle) (setConfigurationRequest cv s) := by
  obtain ⟨hdir, -⟩ := stage_idle_iff.1 hidle
  unfold setConfigurationRequest
  by_cases hoff : cv = 0
  · rw [if_pos hoff, if_pos (.inl hoff)]
    exact statusIn_stage (by split <;> simpa using hdir)
  · rw [if_neg hoff]
    by_cases hon : cv = s.cfg.configValue
    · rw [if_pos hon, if_pos (.inr hon)]
      exact statusIn_stage (by split <;> simpa using hdir)
    · rw [if_neg hon, if_neg (not_or.2 ⟨hoff, hon⟩)]
      exact rejectRequest_stage _ hidle

/-- R188. -/
theorem setInterfaceRequest_stage (v : Word16) (hidle : stage s = .idle) :
    LeavesStage (if v = 0 then .statusStage else .idle) (setInterfaceRequest v s) := by
  obtain ⟨hdir, -⟩ := stage_idle_iff.1 hidle
  unfold setInterfaceRequest
  split
  · exact statusIn_stage hdir
  · exact rejectRequest_stage _ hidle

/-- R190. -/
theorem setReportRequest_stage (ty : Byte) (hidle : stage s = .idle) :
    LeavesStage (if ty = 2 then .dataStageWrite else .idle) (setReportRequest ty s) := by
  unfold setReportRequest
  by_cases hty : ty = 2
  · rw [if_pos hty, if_neg (by simp [hty])]
    exact ⟨rfl, nofun⟩
  · rw [if_neg hty, if_pos (by simpa using hty)]
    exact rejectRequest_stage _ hidle

/-- A request, from the stage a cancelled transfer is in. -/
theorem request_stage {i : Instr} {p : SetupPacket} (hp : requestPacket i = some p) (hidle : stage s = .idle)
    (h : exec i s = .next t) : LeavesStage (requestStage s.cfg i) t := by
  cases i
  case getDescriptorDevice | getDescriptorConfiguration | getDescriptorReport =>
    exact startControlRead_stage (outcome_next h)
  case getDescriptorString => exact getDescString_stage hidle (outcome_next h)
  case getDescriptorDeviceQualifier => exact Host.Outcome.next.inj h ▸ getDescQualifier_stage hidle
  case setAddress => exact Host.Outcome.next.inj h ▸ setAddressRequest_stage _ hidle
  case setConfiguration => exact Host.Outcome.next.inj h ▸ setConfigurationRequest_stage _ hidle
  case setInterface => exact Host.Outcome.next.inj h ▸ setInterfaceRequest_stage _ hidle
  case hidSetReport => exact Host.Outcome.next.inj h ▸ setReportRequest_stage _ hidle
  case hidSetIdle => exact Host.Outcome.next.inj h ▸ statusIn_stage (stage_idle_iff.1 hidle).1
  case getDescriptorOtherDevice | getDescriptorOtherInterface | hidGetReport | unrecognized =>
    exact Host.Outcome.next.inj h ▸ rejectRequest_stage _ hidle
  all_goals exact absurd hp nofun

end

/-- R92: every packet is a request. -/
theorem decodeSetup_request (p : SetupPacket) : (requestPacket (decodeSetup p)).isSome = true := by
  simp only [decodeSetup, apply_ite requestPacket, apply_ite Option.isSome]
  simp only [requestPacket, Option.isSome_some, ite_self]

/-- R172, R170: a Setup leaves the stage its request makes it, whatever the stage was. -/
theorem onSetup_stage {s t : State} {bytes : List Byte} (hlength : bytes.length = 8)
    (hbytes : BytesAt s.ram s.cfg.addrEp0Out.toNat bytes) (h : onSetup s = .ok t) :
    LeavesStage (requestStage s.cfg (decodeSetup (.ofBytes bytes))) t := by
  have hread := readBytes_of_bytesAt hbytes
  obtain ⟨u, rfl, hu⟩ := onSetup_inv h
  rw [← hlength, hread, cancelTransfer_eq] at hu
  obtain ⟨p', hp'⟩ := Option.isSome_iff_exists.1 (decodeSetup_request (.ofBytes bytes))
  have hrun := (exec_decodeSetup (.ofBytes bytes) _).trans (congrArg outcome hu)
  have hleaves := request_stage hp' (by rfl) hrun
  obtain ⟨hstage, hstatus⟩ := hleaves
  have hsame : stage (armEp0Out u) = stage u := stage_congr (by simp) (by simp)
  refine ⟨hsame.trans (hstage.trans ?_), fun hs => ?_⟩
  · simp [transferCancelled]
  · simpa using hstatus (hsame.symm.trans hs)

/-! ### After a completion of `EP0_IN`, R196 -/

/-- A chunk keeps the stage. -/
theorem sendChunk_stage {s t : State} (h : sendChunk s = .ok t) : stage t = stage s :=
  stage_congr (by simp [sendChunk_frame h]) (by simp [sendChunk_frame h])

/-- The stage after a completion in a read. -/
theorem onEp0In_stage_read {s t : State} (hdir : s.ctlDir = .d2h) (h : onEp0In s = .ok t) :
    if s.ctlRemaining ≠ 0 ∨ s.ctlZlp = true then stage t = .dataStageRead
    else stage t = .statusStage ∧ t.ctlStatus = .statusOut := by
  have hread : stage s = .dataStageRead := stage_dataStageRead_iff.2 hdir
  rcases onEp0In_inv h with ⟨-, howed, hs⟩ | ⟨-, -, hzlp, hs⟩ | ⟨-, hsent, hzlp, rfl⟩ | ⟨hne, -⟩ | ⟨hne, -⟩
  · rw [if_pos (.inl howed)]
    exact (sendChunk_stage hs).trans hread
  · rw [if_pos (.inr hzlp)]
    exact (sendChunk_stage hs).trans hread
  · rw [if_neg (by simp [hsent, hzlp])]
    exact ⟨rfl, rfl⟩
  · exact absurd hdir hne
  · exact absurd hdir hne

/-- The stage after the status IN. -/
theorem onEp0In_stage_status {s t : State} (hdir : s.ctlDir = .none) (hstatus : s.ctlStatus = .statusIn)
    (h : onEp0In s = .ok t) : stage t = .idle := by
  have hrun := (onEp0In_status (by simp [hdir]) hstatus).symm.trans h
  rw [← Except.ok.inj hrun]
  exact stage_idle_iff.2 ⟨by simp [hdir], by simp⟩

/-! ### After a completion of `EP0_OUT`, R197 -/

/-- R195: a packet of the data stage goes on with it, or ends it in the status IN. -/
theorem finishWriteData_stage {c n : Nat} {s : State} (hdir : s.ctlDir = .h2d) :
    if c < 32 ∨ s.ctlRemaining - BitVec.ofNat 16 n = 0 then
      stage (finishWriteData c n s) = .statusStage ∧ (finishWriteData c n s).ctlStatus = .statusIn
    else stage (finishWriteData c n s) = .dataStageWrite := by
  by_cases hend : c < 32 ∨ s.ctlRemaining - BitVec.ofNat 16 n = 0
  · have hrun : ∃ r : State, r.ctlDir = .none ∧ finishWriteData c n s = statusIn r :=
      ⟨_, by simp, if_pos hend⟩
    obtain ⟨r, hr, hrun⟩ := hrun
    obtain ⟨hstage, hstatus⟩ := statusIn_stage hr
    rw [if_pos hend, hrun]
    exact ⟨hstage, hstatus hstage⟩
  · have hrun : ∃ r : State, r.ctlDir = .h2d ∧ finishWriteData c n s = r := ⟨_, by exact hdir, if_neg hend⟩
    obtain ⟨r, hr, hrun⟩ := hrun
    rw [if_neg hend, hrun]
    exact stage_dataStageWrite_iff.2 hr

/-- A packet of at most 32 bytes ends the data stage unless it is full and bytes are still owed. -/
theorem controlWriteData_stage {c : Nat} {s t : State} (hdir : s.ctlDir = .h2d) (h : controlWriteData c s = .ok t) :
    if c = 32 ∧ 32 < s.ctlRemaining.toNat then stage t = .dataStageWrite
    else c ≤ 32 → stage t = .statusStage ∧ t.ctlStatus = .statusIn := by
  obtain ⟨a, bytes, hlength, -, rfl⟩ := controlWriteData_inv h
  generalize hr : coreWrite a bytes (afterCoreRead s.cfg.addrEp0Out.toNat bytes.length s) = r
  have howed : r.ctlRemaining = s.ctlRemaining := by simp [← hr]
  have hstage := finishWriteData_stage (c := c) (n := bytes.length) (s := r) (by simp [← hr, hdir])
  have hleft := toNat_sub_ofNat (x := r.ctlRemaining) (n := bytes.length) (by rw [howed]; omega)
  rw [howed] at hstage hleft
  by_cases hmore : c = 32 ∧ 32 < s.ctlRemaining.toNat
  · rw [if_pos hmore]
    rwa [if_neg] at hstage
    rintro (hshort | hnone)
    · omega
    · rw [hnone] at hleft
      simp at hleft
      omega
  · rw [if_neg hmore]
    intro hmax
    rwa [if_pos] at hstage
    by_cases hfull : c < 32
    · exact .inl hfull
    · exact .inr (BitVec.eq_of_toNat_eq (hleft.trans (by simp; omega)))

/-- The arm at the end of `OnEp0Out` keeps the stage. -/
theorem armEp0Out_stage (s : State) : stage (armEp0Out s) = stage s := stage_congr (by simp) (by simp)

/-- The stage after a completion of `EP0_OUT`. -/
theorem handleEp0Out_stage {s t : State} (h : handleEp0Out s = .ok t) :
    (stage s = .dataStageRead → stage t = .idle) ∧
    (stage s = .statusStage → s.ctlStatus = .statusOut → stage t = .idle) ∧
    (stage s = .dataStageWrite →
      if s.bdEp0Out.cnt = 32 ∧ 32 < s.ctlRemaining.toNat then stage t = .dataStageWrite
      else s.bdEp0Out.cnt.toNat ≤ 32 → stage t = .statusStage ∧ t.ctlStatus = .statusIn) := by
  have hended : stage (armEp0Out (endRead s)) = .idle := (armEp0Out_stage _).trans (by rw [endRead_eq]; rfl)
  obtain ⟨u, rfl, ⟨hdir, hu⟩ | ⟨hdir, -, rfl⟩ | ⟨hdir, hstray, rfl⟩⟩ := handleEp0Out_inv h
  · have hwrite := stage_dataStageWrite_iff.2 hdir
    refine ⟨fun hs => absurd (hwrite.symm.trans hs) nofun, fun hs => absurd (hwrite.symm.trans hs) nofun, fun _ => ?_⟩
    have hstage := controlWriteData_stage hdir hu
    have hcnt : s.bdEp0Out.cnt.toNat = 32 ↔ s.bdEp0Out.cnt = 32 := by rw [← BitVec.toNat_inj]; rfl
    rw [armEp0Out_stage]
    simpa [hcnt] using hstage
  · exact ⟨fun _ => hended, fun _ _ => hended, fun hs => absurd (stage_dataStageWrite_iff.1 hs) hdir⟩
  · obtain ⟨hread, hstatus⟩ := not_or.1 hstray
    exact ⟨fun hs => absurd (stage_dataStageRead_iff.1 hs) hread, fun _ hs => absurd hs hstatus,
      fun hs => absurd (stage_dataStageWrite_iff.1 hs) hdir⟩

/-- Settles O50: the levels from the report of every step, the stages from what each handler leaves. -/
theorem outputLinesAndStage : Obligations.OutputLinesAndStage := by
  refine ⟨fun s => ⟨csLevel_active_iff s, indicatorLevel_iff s, stage_dataStageWrite_iff, stage_dataStageRead_iff,
    stage_statusStage_iff, stage_idle_iff⟩, fun s t => step_levels, ?setup, ?ep0In, ?ep0Out⟩
  case setup =>
    intro s t b0 b1 b2 b3 b4 b5 b6 b7 hqueue hpid hbytes h
    rw [exec_usbEvent_single (i := .evUsbEp0Setup) hqueue ⟨(headIs_iff _ _ _).2 ⟨[], hqueue⟩, hpid⟩] at h
    have hroute : route 0 .out { s with trnFifo := [] } = onSetup (readField .ep0Out { s with trnFifo := [] }) :=
      if_pos hpid
    have hrun := hroute.symm.trans (outcome_next h)
    obtain ⟨hstage, hstatus⟩ := onSetup_stage (bytes := [b0, b1, b2, b3, b4, b5, b6, b7]) rfl (by simpa using hbytes) hrun
    exact ⟨hstage.trans (by simp; rfl), hstatus⟩
  case ep0In =>
    intro s t hqueue h
    rw [exec_evUsbEp0In hqueue] at h
    have hrun := outcome_next h
    refine ⟨fun hread => ?_, fun hstage hstatus => ?_⟩
    · exact onEp0In_stage_read (s := { s with trnFifo := [] }) (stage_dataStageRead_iff.1 hread) hrun
    · exact onEp0In_stage_status (s := { s with trnFifo := [] }) (stage_statusStage_iff.1 hstage).1 hstatus hrun
  case ep0Out =>
    intro s t hqueue hpid h
    rw [exec_evUsbEp0Out hqueue hpid] at h
    have hrun := handleEp0Out_stage (outcome_next h)
    have hsame : stage (readField .ep0Out (readField .ep0Out { s with trnFifo := [] })) = stage s :=
      stage_congr (by simp) (by simp)
    simpa [hsame] using hrun

end Sys2Proof.Machine
end

section
/-! PROOFS. A whole transaction, `spec/40_spi_engine.md` R123 and R124: from the first byte to the callback, one SHIFTER
answer and one byte-complete event per byte. -/

namespace Sys2Proof.Machine

open Sys2Proof

/-! ### Runs -/

/-- A run takes its first step, then the others: of any machine. -/
theorem coreRun_succ {M : Host.Core} {s t : M.State} (h : M.step s = .next t) (k : Nat) :
    M.run (k + 1) s = M.run k t := by
  rw [Host.Core.run, h]

/-- A run after a run: of any machine. -/
theorem coreRun_add {M : Host.Core} {j : Nat} {s t : M.State} (h : M.run j s = .next t) (k : Nat) :
    M.run (j + k) s = M.run k t := by
  induction j generalizing s with
  | zero =>
    obtain rfl := Host.Outcome.next.inj h
    rw [Nat.zero_add]
  | succ j ih =>
    rw [Nat.succ_add]
    cases hstep : M.step s with
    | next u =>
      rw [coreRun_succ hstep] at h ⊢
      exact ih h
    | fault f =>
      rw [Host.Core.run, hstep] at h
      exact absurd h nofun
    | refused r =>
      rw [Host.Core.run, hstep] at h
      exact absurd h nofun

/-- A run of the block takes its first step, then the others. -/
theorem run_succ {s t : State} (h : step s = .next t) (k : Nat) :
    Host.Core.run core (k + 1) s = Host.Core.run core k t := coreRun_succ (M := core) h k

/-- A run of the block after a run. -/
theorem run_add {j : Nat} {s t : State} (h : Host.Core.run core j s = .next t) (k : Nat) :
    Host.Core.run core (j + k) s = Host.Core.run core k t := coreRun_add (M := core) h k

/-- A run of one step. -/
theorem run_one {s t : State} (h : step s = .next t) : Host.Core.run core 1 s = .next t := run_succ h 0

/-! ### Bytes of memory, one at a time -/

/-- The first byte and the others. -/
theorem bytesAt_cons {m : Memory} {a : Nat} {b : Byte} {bs : List Byte} :
    BytesAt m a (b :: bs) ↔ m.read? a = some b ∧ BytesAt m (a + 1) bs := by
  refine ⟨fun h => ⟨h 0 (Nat.zero_lt_succ _), fun k hk => ?_⟩, fun ⟨hb, h⟩ k hk => ?_⟩
  · rw [Nat.add_assoc, Nat.add_comm 1 k, h (k + 1) (by simpa using hk), List.getElem?_cons_succ]
  · cases k with
    | zero => exact hb
    | succ k =>
      rw [List.getElem?_cons_succ, ← h k (by simpa using hk)]
      congr 1
      omega

/-- Bytes beyond a store are as before. -/
theorem BytesAt.of_storedAt {s : State} {a : Nat} {b : Byte} {m : Memory} {bs : List Byte} (hm : StoredAt s a [b] m)
    (h : BytesAt s.ram (a + 1) bs) : BytesAt m (a + 1) bs := fun k hk => by
  obtain ⟨-, hother⟩ := hm
  rw [hother _ (.inr (by simp only [List.length_singleton]; omega)), h k hk]

/-- A store of one byte and a store of the bytes after it are one store. -/
theorem StoredAt.cons {s : State} {a : Nat} {b : Byte} {bs : List Byte} {m m' : Memory} (hm : StoredAt s a [b] m)
    (hm' : StoredAt { s with ram := m } (a + 1) bs m') : StoredAt s a (b :: bs) m' := by
  obtain ⟨hbyte, hother⟩ := hm
  obtain ⟨hbytes, hother'⟩ := hm'
  refine ⟨bytesAt_cons.2 ⟨?_, hbytes⟩, fun x hx => ?_⟩
  · exact (hother' a (.inl (Nat.lt_succ_self a))).trans (hbyte 0 Nat.one_pos)
  · rw [List.length_cons] at hx
    exact (hother' x (by omega)).trans (hother x (by simp only [List.length_singleton]; omega))

/-- A read of written bytes of the CORE records nothing. -/
theorem readCauses_nil {s : State} {a n : Nat} {causes : List ModelCause} (h : ReadCauses s a n causes)
    (hmay : coreMayAccess s a n) (hwritten : ∀ k, k < n → s.ram.read? (a + k) ≠ none) : causes = [] := by
  obtain ⟨owner, unwritten, rfl, howner, -, hunwritten, -⟩ := h
  rw [howner hmay, hunwritten hwritten, List.nil_append]

/-- A part of a range the CORE may access. -/
theorem coreMayAccess_part {s : State} {a n a' n' : Nat} (h : coreMayAccess s a n) (ha : a ≤ a') (hn : a' + n' ≤ a + n) :
    coreMayAccess s a' n' := fun e x hsie hlo hhi hx => h e x hsie hlo hhi (by omega)

/-! ### A transaction under way -/

/-- A byte of a transaction is in progress: what the transaction has changed since the state `s` it started from. -/
def inExchange (s : State) (cb : Callback) (ptr : Word16) (remaining tx rx : Byte) (m : Memory) (trace : List Event)
    (inputs : List Input) : State :=
  { s with
    spiActive := true, spiPtr := ptr, spiRemaining := remaining, spiCallback := cb, spiCs := true, shTx := tx
    shBusy := true, shRx := rx, shRxFull := false, spiIf := false, ram := m, trace := trace, inputs := inputs }

/-- The transaction is over, its slot free. -/
def exchangeEnded (s : State) (ptr : Word16) (tx rx : Byte) (m : Memory) (trace : List Event) (inputs : List Input) :
    State :=
  { s with
    spiActive := false, spiPtr := ptr, spiRemaining := 0, spiCallback := .none, spiCs := false, shTx := tx
    shBusy := false, shRx := rx, shRxFull := false, spiIf := false, ram := m, trace := trace, inputs := inputs }

/-- The SHIFTER's answer and the byte-complete event after it, R99: the event runs with the answer received. -/
theorem run_answered {s t : State} {rx : Byte} {rest : List Input}
    (hin : s.inputs = .agent (.shifter rx) :: .packet (.evt 0) :: rest) (hbusy : s.shBusy = true)
    (h : exec .evSpiByteComplete
      { s with inputs := rest, shRx := rx, shRxFull := true, shBusy := false, spiIf := true } = .next t) :
    Host.Core.run core 2 s = .next t := by
  have hshifter : step s = .next { s with
      inputs := .packet (.evt 0) :: rest, shRx := rx, shRxFull := true, shBusy := false, spiIf := true } := by
    rw [step_agent hin, agentStep, shifterStep, if_pos hbusy]
  exact (run_succ hshifter 1).trans (run_one h)

section
variable (s : State) (cb : Callback) (ptr : Word16) (remaining tx rx0 rx : Byte) (m : Memory) (trace : List Event)
  (rest : List Input)

/-- The schedule of one byte. -/
def byteSchedule (rx : Byte) (rest : List Input) : List Input := .agent (.shifter rx) :: .packet (.evt 0) :: rest

/-- A byte that is not the last: the answer is stored, the next byte is sent. -/
theorem run_byte {next : Byte} (hmore : remaining ≠ 1) (hspace : ptr.toNat + 2 ≤ 65536)
    (hmay : coreMayAccess s ptr.toNat 2) (hnext : m.read? (ptr.toNat + 1) = some next) :
    ∃ m', StoredAt { s with ram := m } ptr.toNat [rx] m' ∧
      Host.Core.run core 2 (inExchange s cb ptr remaining tx rx0 m trace (byteSchedule rx rest)) =
        .next (inExchange s cb (ptr + 1) (remaining - 1) next rx m' (trace ++ [.rx rx] ++
          (if (remaining - 1).toNat % 2 = 0 then [.cs false, .cs true] else []) ++ [.tx next]) rest) := by
  have hptr : (ptr + 1).toNat = ptr.toNat + 1 := by bv_omega
  obtain ⟨m', slot, b, causes, n, hstored, -, hcauses, hb, hrun⟩ := byteCompleteContinues
    { inExchange s cb ptr remaining tx rx0 m trace rest with shRx := rx, shRxFull := true, shBusy := false, spiIf := true }
    rfl rfl hmore
  have hslot : coreMayAccess s ptr.toNat 1 := coreMayAccess_part hmay le_rfl (by omega)
  have hsecond : coreMayAccess s (ptr + 1).toNat 1 := coreMayAccess_part hmay (by omega) (by omega)
  have hwritten : m.read? (ptr + 1).toNat = some next := hptr.symm ▸ hnext
  obtain ⟨hm', rfl⟩ := hstored hslot
  obtain rfl := readCauses_nil hcauses hsecond fun k hk => by
    obtain rfl : k = 0 := by omega
    exact ne_of_eq_of_ne hwritten nofun
  obtain ⟨rfl, rfl⟩ := hb next hwritten
  refine ⟨m', hm', (run_answered rfl rfl (hrun.trans ?_))⟩
  simp [inExchange]

/-- The last byte: the answer is stored, the slot is freed, the callback runs. -/
theorem run_lastByte (hmay : coreMayAccess s ptr.toNat 1) :
    ∃ m' t, StoredAt { s with ram := m } ptr.toNat [rx] m' ∧
      Host.Core.run core 2 (inExchange s cb ptr 1 tx rx0 m trace (byteSchedule rx rest)) = .next t ∧
      exec (.callInvokeCallback cb) (exchangeEnded s (ptr + 1) tx rx m' (trace ++ [.rx rx] ++ [.cs false]) rest) =
        .next t := by
  obtain ⟨hends, -⟩ := byteCompleteEnds
    { inExchange s cb ptr 1 tx rx0 m trace rest with shRx := rx, shRxFull := true, shBusy := false, spiIf := true } rfl
  obtain ⟨m', slot, t, hstored, -, hrun, hcallback⟩ := hends rfl rfl
  obtain ⟨hm', rfl⟩ := hstored hmay
  refine ⟨m', t, hm', run_answered rfl rfl hrun, Eq.trans (congrArg _ ?_) hcallback⟩
  simp [inExchange, exchangeEnded]

end

/-! ### The frames of a transaction, R123 -/

/-- The bytes a frame sends. -/
def FrameExchange.sent (f : FrameExchange) : List Byte := [f.sent0, f.sent1]

/-- The bytes a frame receives. -/
def FrameExchange.received (f : FrameExchange) : List Byte := [f.received0, f.received1]

/-- What a frame reports after its first byte is sent. -/
def FrameExchange.reports (f : FrameExchange) : List Event :=
  [.rx f.received0, .tx f.sent1, .rx f.received1, .cs false]

/-- The counter after the first byte of a frame with `n` frames after it. -/
theorem remaining_toNat {n : Nat} (h : 2 * (n + 1) < 256) : (BitVec.ofNat 8 (2 * (n + 1)) - 1).toNat = 2 * n + 1 := by
  rw [BitVec.toNat_sub_of_le (by rw [BitVec.le_def]; simp; omega)]
  simp
  omega

/-- The counter after a frame. -/
theorem remaining_frame {n : Nat} : BitVec.ofNat 8 (2 * (n + 1)) - 1 - 1 = BitVec.ofNat 8 (2 * n) := by
  apply BitVec.eq_of_toNat_eq
  simp
  omega

/-- From the first byte of a frame on, the transaction runs to its end. -/
theorem run_frames (s : State) (cb : Callback) (rest : List Input) (f : FrameExchange) (fs : List FrameExchange)
    (ptr : Word16) (rx0 : Byte) (m : Memory) (trace : List Event) (hcount : 2 * (fs.length + 1) < 256)
    (hspace : ptr.toNat + 2 * (fs.length + 1) ≤ 65536) (hmay : coreMayAccess s ptr.toNat (2 * (fs.length + 1)))
    (hbytes : BytesAt m ptr.toNat ((f :: fs).flatMap (·.sent))) :
    ∃ m' t, StoredAt { s with ram := m } ptr.toNat ((f :: fs).flatMap (·.received)) m' ∧
      Host.Core.run core (4 * (fs.length + 1)) (inExchange s cb ptr (BitVec.ofNat 8 (2 * (fs.length + 1))) f.sent0 rx0 m
        trace ((f :: fs).flatMap (·.schedule) ++ rest)) = .next t ∧
      exec (.callInvokeCallback cb) (exchangeEnded s (ptr + BitVec.ofNat 16 (2 * (fs.length + 1)))
        (fs.getLast?.getD f).sent1 (fs.getLast?.getD f).received1 m'
        (trace ++ f.reports ++ fs.flatMap (·.events)) rest) = .next t := by
  induction fs generalizing f ptr rx0 m trace with
  | nil =>
    obtain ⟨-, hsent⟩ := bytesAt_cons.1 hbytes
    obtain ⟨hsent1, -⟩ := bytesAt_cons.1 hsent
    have hptr : (ptr + 1).toNat = ptr.toNat + 1 := by bv_omega
    obtain ⟨m₁, hm₁, hrun₁⟩ := run_byte s cb ptr 2 f.sent0 rx0 f.received0 m trace
      (byteSchedule f.received1 rest) (by decide) hspace hmay hsent1
    obtain ⟨m₂, t, hm₂, hrun₂, hcallback⟩ := run_lastByte s cb (ptr + 1) f.sent1 f.received0 f.received1 m₁
      (trace ++ [.rx f.received0] ++ [] ++ [.tx f.sent1]) rest (coreMayAccess_part hmay (by omega) (by omega))
    refine ⟨m₂, t, hm₁.cons (hptr ▸ hm₂), (run_add hrun₁ 2).trans hrun₂, Eq.trans (congrArg _ ?_) hcallback⟩
    simp [FrameExchange.reports, BitVec.add_assoc]
  | cons g gs ih =>
    rw [List.length_cons] at *
    obtain ⟨-, hsent⟩ := bytesAt_cons.1 hbytes
    obtain ⟨hsent1, -⟩ := bytesAt_cons.1 hsent
    have hptr : (ptr + 1).toNat = ptr.toNat + 1 := by bv_omega
    have hptr' : (ptr + 1 + 1).toNat = ptr.toNat + 1 + 1 := by bv_omega
    have hone := remaining_toNat (n := gs.length + 1) hcount
    have hodd : (BitVec.ofNat 8 (2 * (gs.length + 1 + 1)) - 1).toNat % 2 ≠ 0 := by omega
    have heven : (BitVec.ofNat 8 (2 * (gs.length + 1))).toNat % 2 = 0 := by
      rw [BitVec.toNat_ofNat]
      omega
    have hend : ptr + BitVec.ofNat 16 (2 * (gs.length + 1 + 1)) = ptr + 1 + 1 + BitVec.ofNat 16 (2 * (gs.length + 1)) := by
      apply BitVec.eq_of_toNat_eq
      simp
      omega
    obtain ⟨m₁, hm₁, hrun₁⟩ := run_byte s cb ptr (BitVec.ofNat 8 (2 * (gs.length + 1 + 1))) f.sent0 rx0 f.received0 m
      trace (byteSchedule f.received1 ((g :: gs).flatMap (·.schedule) ++ rest))
      (fun h => by rw [h] at hone; simp at hone) (by omega) (coreMayAccess_part hmay le_rfl (by omega)) hsent1
    have hsent₁ := hsent.of_storedAt (s := { s with ram := m }) hm₁
    obtain ⟨-, hrest₁⟩ := bytesAt_cons.1 hsent₁
    obtain ⟨hnext, -⟩ := bytesAt_cons.1 hrest₁
    rw [← hptr] at hnext hrest₁
    rw [if_neg hodd] at hrun₁
    obtain ⟨m₂, hm₂, hrun₂⟩ := run_byte s cb (ptr + 1) (BitVec.ofNat 8 (2 * (gs.length + 1 + 1)) - 1) f.sent1 f.received0
      f.received1 m₁ (trace ++ [.rx f.received0] ++ [] ++ [.tx f.sent1]) ((g :: gs).flatMap (·.schedule) ++ rest)
      (fun h => by rw [h] at hone; simp at hone) (by omega) (coreMayAccess_part hmay (by omega) (by omega)) hnext
    rw [remaining_frame, if_pos heven] at hrun₂
    have hrest₂ := hrest₁.of_storedAt (s := { s with ram := m₁ }) hm₂
    rw [hptr, ← hptr'] at hrest₂
    obtain ⟨m₃, t, hm₃, hrun₃, hcallback⟩ := ih g (ptr + 1 + 1) f.received1 m₂
      (trace ++ [.rx f.received0] ++ [] ++ [.tx f.sent1] ++ [.rx f.received1] ++ [.cs false, .cs true] ++ [.tx g.sent0])
      (by omega) (by omega) (coreMayAccess_part hmay (by omega) (by omega)) hrest₂
    have hsteps : 4 * (gs.length + 1 + 1) = 2 + (2 + 4 * (gs.length + 1)) := by omega
    have hlast : (g :: gs).getLast?.getD f = gs.getLast?.getD g := by
      rw [List.getLast?_cons, Option.getD_some]
    refine ⟨m₃, t, hm₁.cons (hptr ▸ hm₂.cons (hptr ▸ hptr' ▸ hm₃)), ?_, Eq.trans (congrArg _ ?_) hcallback⟩
    · exact (congrArg (Host.Core.run core · _) hsteps).trans
        ((run_add hrun₁ _).trans ((run_add hrun₂ _).trans hrun₃))
    · rw [hlast, hend]
      simp [FrameExchange.reports, FrameExchange.events]

/-- A ready engine whose SHIFTER is idle after the transaction as before it. -/
theorem exchangeEnded_ready {s : State} (hready : engineReady s) (hbusy : s.shBusy = false) (hif : s.spiIf = false)
    (ptr : Word16) (tx rx : Byte) (m : Memory) (trace : List Event) (inputs : List Input) :
    exchangeEnded s ptr tx rx m trace inputs = { s with
      spiPtr := ptr, spiRemaining := 0, spiCallback := .none, spiCs := false, shTx := tx, shRx := rx, trace := trace
      ram := m, inputs := inputs } := by
  obtain ⟨hactive, hfull⟩ := hready
  simp only [exchangeEnded, hactive, hfull, hbusy, hif]

/-- Settles O15: the request sends the first frame's first byte, and from there the frames run one after the other. -/
theorem transactionRuns : Obligations.TransactionRuns := by
  intro s buf cb frames rest hready hbusy hif hne hcount hspace hmay hbytes
  cases frames with
  | nil => exact absurd rfl hne
  | cons f fs =>
    rw [List.length_cons] at *
    obtain ⟨m, u, hstored, hrun, hcallback⟩ := run_frames s cb rest f fs buf s.shRx s.ram
      (s.trace ++ [.cs true, .tx f.sent0]) hcount hspace hmay hbytes
    obtain ⟨hfirst, -⟩ := bytesAt_cons.1 hbytes
    have hlen : (BitVec.ofNat 8 (2 * (fs.length + 1))).toNat = 2 * (fs.length + 1) := by
      rw [BitVec.toNat_ofNat, Nat.mod_eq_of_lt hcount]
    have hstart := (startExchangeRuns s buf (BitVec.ofNat 8 (2 * (fs.length + 1))) cb).1 hready
      (fun h => by rw [h] at hlen; simp at hlen) (by omega)
    have hstarted := hstart.1 f.sent0 hfirst (coreMayAccess_part hmay le_rfl (by omega))
    refine ⟨m, _, u, hstored, hstarted, Eq.trans (congrArg _ ?_) hrun, Eq.trans (congrArg _ ?_) hcallback⟩
    · simp only [exchangeStarted, inExchange, hready.2, hif]
    · rw [exchangeEnded_ready hready hbusy hif, List.getLast?_cons]
      simp [FrameExchange.reports, FrameExchange.events]

end Sys2Proof.Machine
end

section
/-! PROOFS. A whole control read, `spec/42_usb_ep0.md` R199 and R201: the HOST reads each packet, the block arms the next
chunk, until the table's first bytes, and an owed empty packet, have been read. -/

namespace Sys2Proof.Machine

open Sys2Proof

/-! ### A read under way -/

/-- The transfer of a read since the state `s` it started from: `left` is what is still to send, `d` the toggle of the
next chunk, `zlp` whether the empty packet is owed. -/
structure ReadTransfer (s r : State) (left : List Byte) (d : Toggle) (zlp : Bool) : Prop where
  cfg : r.cfg = s.cfg
  queue : r.trnFifo = []
  outside : ∀ x, (x < s.cfg.addrEp0In.toNat ∨ s.cfg.addrEp0In.toNat + 32 ≤ x) → r.ram.read? x = s.ram.read? x
  dir : r.ctlDir = .d2h
  inside : r.ctlSrcOff.toNat + r.ctlRemaining.toNat ≤ (r.cfg.rom r.ctlSrcTable).length
  space : r.ctlSrcOff.toNat + r.ctlRemaining.toNat < 65536
  bytes : left = ((r.cfg.rom r.ctlSrcTable).drop r.ctlSrcOff.toNat).take r.ctlRemaining.toNat
  toggle : r.ctlToggle = d
  owed : r.ctlZlp = zlp

/-- A chunk of it waits armed with toggle `d` for the HOST. -/
structure ReadArmed (s r : State) (chunk left : List Byte) (d : Toggle) (zlp : Bool) : Prop where
  transfer : ReadTransfer s r left (d ^^^ 1) zlp
  sie : r.bdEp0In.own = .sie
  unstalled : r.bdEp0In.stall = false
  dts : r.bdEp0In.dts = d
  cnt : r.bdEp0In.cnt.toNat = chunk.length
  adr : r.bdEp0In.adr = r.cfg.addrEp0In
  short : chunk.length ≤ 32
  stored : BytesAt r.ram r.cfg.addrEp0In.toNat chunk

/-- It is over: the block waits for the status OUT. -/
structure ReadDone (s u : State) : Prop where
  queue : u.trnFifo = []
  dir : u.ctlDir = .none
  status : u.ctlStatus = .statusOut
  cpu : u.bdEp0In.own = .cpu
  outside : ∀ x, (x < s.cfg.addrEp0In.toNat ∨ s.cfg.addrEp0In.toNat + 32 ≤ x) → u.ram.read? x = s.ram.read? x

section
variable {s r : State} {chunk left : List Byte} {d : Toggle} {zlp : Bool}

/-- What is owed is as long as the counter says. -/
theorem ReadTransfer.left_length (h : ReadTransfer s r left d zlp) : left.length = r.ctlRemaining.toNat := by
  have := h.inside
  rw [h.bytes, List.length_take, List.length_drop]
  omega

/-- Nothing is left exactly when the counter is 0. -/
theorem ReadTransfer.left_nil_iff (h : ReadTransfer s r left d zlp) : left = [] ↔ r.ctlRemaining = 0 := by
  rw [← List.length_eq_zero_iff, h.left_length, ← BitVec.toNat_inj]
  rfl

/-- The transfer is one of R193. -/
theorem ReadTransfer.transferInv (h : ReadTransfer s r left d zlp) : TransferInv r :=
  ⟨fun _ => h.inside, fun hdir => absurd (h.dir.symm.trans hdir) nofun⟩

/-- The next chunk is the first 32 bytes of what is left. -/
theorem ReadTransfer.nextChunk_eq (h : ReadTransfer s r left d zlp) : nextChunk r = left.take 32 := by
  rw [nextChunk, h.bytes, List.take_take, Nat.min_comm]

/-- `SendChunk` arms it and keeps the rest (R193). -/
theorem ReadTransfer.sendChunk (h : ReadTransfer s r left d zlp) (hcpu : r.bdEp0In.own = .cpu) :
    ∃ t, Machine.sendChunk r = .ok t ∧ ReadArmed s t (left.take 32) (left.drop 32) d zlp ∧
      t.hostLog = r.hostLog ∧ t.inputs = r.inputs := by
  have hlength := h.left_length
  have hspace := h.space
  have hinside := h.inside
  have hn : (left.take 32).length = min 32 left.length := List.length_take
  have hrun := sendChunk_eq h.dir hcpu h.transferInv
  rw [h.nextChunk_eq] at hrun
  have hoff : (r.ctlSrcOff + BitVec.ofNat 16 (left.take 32).length).toNat =
      r.ctlSrcOff.toNat + (left.take 32).length := by
    rw [BitVec.toNat_add, BitVec.toNat_ofNat]
    omega
  have hrem : (r.ctlRemaining - BitVec.ofNat 16 (left.take 32).length).toNat =
      r.ctlRemaining.toNat - (left.take 32).length := toNat_sub_ofNat (by omega)
  have hleft : left.drop 32 = ((r.cfg.rom r.ctlSrcTable).drop (r.ctlSrcOff.toNat + (left.take 32).length)).take
      (r.ctlRemaining.toNat - (left.take 32).length) := by
    rw [← List.drop_drop, ← List.drop_take, ← h.bytes, hn, ← List.drop_eq_drop_min]
  have hcnt : (BitVec.ofNat 10 (left.take 32).length).toNat = (left.take 32).length := by
    rw [BitVec.toNat_ofNat]
    omega
  obtain ⟨hstored, hother⟩ := storedAt_setAll r r.cfg.addrEp0In.toNat (left.take 32)
  have houtside (x : Nat) (hx : x < s.cfg.addrEp0In.toNat ∨ s.cfg.addrEp0In.toNat + 32 ≤ x) :
      (r.ram.setAll r.cfg.addrEp0In.toNat (left.take 32)).read? x = s.ram.read? x :=
    (hother x (by rw [h.cfg]; omega)).trans (h.outside x hx)
  have hinside' : (r.ctlSrcOff + BitVec.ofNat 16 (left.take 32).length).toNat +
      (r.ctlRemaining - BitVec.ofNat 16 (left.take 32).length).toNat ≤ (r.cfg.rom r.ctlSrcTable).length := by omega
  have hspace' : (r.ctlSrcOff + BitVec.ofNat 16 (left.take 32).length).toNat +
      (r.ctlRemaining - BitVec.ofNat 16 (left.take 32).length).toNat < 65536 := by omega
  rw [← hoff, ← hrem] at hleft
  refine ⟨_, hrun, ⟨⟨h.cfg, h.queue, houtside, h.dir, hinside', hspace', hleft,
    congrArg (· ^^^ 1) h.toggle, h.owed⟩, rfl, rfl, h.toggle, hcnt, rfl, by omega, hstored⟩, rfl, rfl⟩

/-! ### One packet: the HOST reads it, the block handles its completion -/

/-- The state in which the completion of a packet is handled. -/
def packetRead (chunk : List Byte) (d : Toggle) (rest : List Input) (r : State) : State :=
  { r with
    inputs := rest
    trnFifo := []
    bdEp0In := { r.bdEp0In with pid := .inn, own := .cpu }
    hostLog := r.hostLog ++ [.data .ep0In d chunk] }

/-- It is a state of the same transfer. -/
theorem ReadArmed.packetRead (h : ReadArmed s r chunk left d zlp) (rest : List Input) :
    ReadTransfer s (Machine.packetRead chunk d rest r) left (d ^^^ 1) zlp := by
  obtain ⟨hcfg, -, houtside, hdir, hinside, hspace, hbytes, htoggle, howed⟩ := h.transfer
  exact ⟨hcfg, rfl, houtside, hdir, hinside, hspace, hbytes, htoggle, howed⟩

/-- The schedule of one packet (R200). -/
def packetSchedule : List Input := [.agent (.hostIn .ep0), .packet (.evt 0x419)]

/-- The event word `EV_USB_EP0_IN` from the schedule (R81). -/
theorem step_ep0InWord {s : State} {rest : List Input} (h : s.inputs = .packet (.evt 0x419) :: rest) :
    step s = exec .evUsbEp0In { s with inputs := rest } := by
  rw [step, h]
  rfl

/-- The HOST reads the armed chunk, and its completion is handled. -/
theorem ReadArmed.run_packet {t : State} {rest : List Input} (h : ReadArmed s r chunk left d zlp)
    (hin : r.inputs = packetSchedule ++ rest) (hrun : onEp0In (Machine.packetRead chunk d rest r) = .ok t) :
    Host.Core.run core 2 r = .next t := by
  have hqueue := h.transfer.queue
  have hread := hostInStep_read (s := { r with inputs := .packet (.evt 0x419) :: rest }) (ep := .ep0) (bytes := chunk)
    (congrArg BitVec.toNat h.adr) (le_of_eq_of_le h.cnt h.short) h.sie h.unstalled h.cnt.symm h.stored
  have hfirst := (step_agent hin).trans hread
  have hsecond := exec_evUsbEp0In (s := { Machine.packetRead chunk d rest r with trnFifo := [(0, .inn)] }) rfl
  refine (run_succ hfirst 1).trans (run_one ?_)
  refine (step_ep0InWord rfl).trans (Eq.trans (congrArg (exec .evUsbEp0In) ?_) (hsecond.trans (congrArg outcome hrun)))
  simp [State.setBd, State.bd, inBd, epNumber, Machine.packetRead, hqueue, h.dts]

end

/-- The transfer with its empty packet no longer owed. -/
theorem ReadTransfer.paid {s r : State} {left : List Byte} {d : Toggle} {zlp : Bool} (h : ReadTransfer s r left d zlp) :
    ReadTransfer s { r with ctlZlp := false } left d false := by
  obtain ⟨hcfg, hqueue, houtside, hdir, hinside, hspace, hbytes, htoggle, -⟩ := h
  exact ⟨hcfg, hqueue, houtside, hdir, hinside, hspace, hbytes, htoggle, rfl⟩

section
variable {s r : State} {chunk left : List Byte} {d : Toggle} {zlp : Bool} {rest : List Input}

/-- A packet with bytes left after it. -/
theorem ReadArmed.run_more (h : ReadArmed s r chunk left d zlp) (hin : r.inputs = packetSchedule ++ rest)
    (hleft : left ≠ []) : ∃ t, Host.Core.run core 2 r = .next t ∧
      ReadArmed s t (left.take 32) (left.drop 32) (d ^^^ 1) zlp ∧
      t.hostLog = r.hostLog ++ [.data .ep0In d chunk] ∧ t.inputs = rest := by
  have hread := h.packetRead rest
  obtain ⟨t, hsend, harmed, hlog, hinputs⟩ := hread.sendChunk rfl
  exact ⟨t, h.run_packet hin ((onEp0In_read hread.dir (mt hread.left_nil_iff.2 hleft)).trans hsend), harmed, hlog, hinputs⟩

/-- The last packet with bytes, the empty one owed. -/
theorem ReadArmed.run_owed (h : ReadArmed s r chunk [] d true) (hin : r.inputs = packetSchedule ++ rest) :
    ∃ t, Host.Core.run core 2 r = .next t ∧ ReadArmed s t [] [] (d ^^^ 1) false ∧
      t.hostLog = r.hostLog ++ [.data .ep0In d chunk] ∧ t.inputs = rest := by
  have hread := h.packetRead rest
  obtain ⟨t, hsend, harmed, hlog, hinputs⟩ := hread.paid.sendChunk rfl
  exact ⟨t, h.run_packet hin ((onEp0In_zlp hread.dir (hread.left_nil_iff.1 rfl) hread.owed).trans hsend), harmed, hlog,
    hinputs⟩

/-- The last packet. -/
theorem ReadArmed.run_last (h : ReadArmed s r chunk [] d false) (hin : r.inputs = packetSchedule ++ rest) :
    ∃ t, Host.Core.run core 2 r = .next t ∧ ReadDone s t ∧
      t.hostLog = r.hostLog ++ [.data .ep0In d chunk] ∧ t.inputs = rest := by
  have hread := h.packetRead rest
  exact ⟨_, h.run_packet hin (onEp0In_readDone hread.dir (hread.left_nil_iff.1 rfl) hread.owed),
    ⟨rfl, rfl, rfl, rfl, hread.outside⟩, rfl, rfl⟩

end

/-! ### All packets, R199 and R201 -/

/-- The empty packet after `data`, if it is owed. -/
def zlpPacket (d : Toggle) (data : List Byte) (zlp : Bool) : List HostEvent :=
  if zlp = true then [.data .ep0In (if data.length / 32 % 2 = 0 then d else d ^^^ 1) []] else []

/-- The packets of a read of `data`. -/
def allPackets (fuel : Nat) (d : Toggle) (data : List Byte) (zlp : Bool) : List HostEvent :=
  readPackets fuel d data ++ zlpPacket d data zlp

/-- The schedule of `n` packets. -/
def readSchedule (n : Nat) (rest : List Input) : List Input := (List.replicate n packetSchedule).flatten ++ rest

/-- One packet, then the others. -/
theorem readSchedule_succ (n : Nat) (rest : List Input) :
    readSchedule (n + 1) rest = packetSchedule ++ readSchedule n rest := by
  rw [readSchedule, List.replicate_succ, List.flatten_cons, List.append_assoc, readSchedule]

section
variable {fuel : Nat} {d : Toggle} {data : List Byte} {zlp : Bool}

/-- One packet, the last with bytes. -/
theorem allPackets_last (hshort : data.length ≤ 32) :
    allPackets (fuel + 1) d data zlp = .data .ep0In d data :: zlpPacket d data zlp := by
  rw [allPackets, readPackets, if_pos hshort, List.singleton_append]

/-- A full packet and the packets after it; the empty one has the toggle that follows theirs. -/
theorem allPackets_more (hlong : 32 < data.length) (hfull : zlp = true → data.length % 32 = 0) :
    allPackets (fuel + 1) d data zlp =
      .data .ep0In d (data.take 32) :: allPackets fuel (d ^^^ 1) (data.drop 32) zlp := by
  have htoggle : d ^^^ 1 ^^^ 1 = d := by rw [BitVec.xor_assoc, BitVec.xor_self, BitVec.xor_zero]
  have hzlp : zlpPacket d data zlp = zlpPacket (d ^^^ 1) (data.drop 32) zlp := by
    unfold zlpPacket
    split
    next hz =>
      have hparity : (data.drop 32).length / 32 % 2 = 0 ↔ ¬data.length / 32 % 2 = 0 := by
        rw [List.length_drop]
        omega
      simp only [hparity, htoggle, ite_not]
    next => rfl
  rw [allPackets, readPackets, if_neg (by omega), hzlp, List.cons_append, allPackets]

/-- From an armed chunk on, the HOST reads all the packets and the read is over. -/
theorem run_read {s r : State} {rest : List Input} (hfuel : data.length < fuel)
    (hfull : zlp = true → data.length % 32 = 0 ∧ 0 < data.length)
    (h : ReadArmed s r (data.take 32) (data.drop 32) d zlp)
    (hin : r.inputs = readSchedule (allPackets fuel d data zlp).length rest) :
    ∃ u, Host.Core.run core (2 * (allPackets fuel d data zlp).length) r = .next u ∧ ReadDone s u ∧
      u.hostLog = r.hostLog ++ allPackets fuel d data zlp ∧ u.inputs = rest := by
  induction fuel generalizing r d data with
  | zero => omega
  | succ fuel ih =>
    by_cases hlong : 32 < data.length
    · rw [allPackets_more hlong fun hz => (hfull hz).1, List.length_cons] at *
      rw [readSchedule_succ] at hin
      have hmore : data.drop 32 ≠ [] := by
        rw [Ne, List.drop_eq_nil_iff]
        omega
      obtain ⟨t, hrun, harmed, hlog, hinputs⟩ := h.run_more hin hmore
      obtain ⟨u, hrun', hdone, hlog', hinputs'⟩ := ih (by rw [List.length_drop]; omega)
        (fun hz => by have := hfull hz; rw [List.length_drop]; omega) harmed hinputs
      refine ⟨u, ?_, hdone, by rw [hlog', hlog, List.append_assoc, List.singleton_append], hinputs'⟩
      exact (congrArg (Host.Core.run core · r) (by omega)).trans ((run_add hrun _).trans hrun')
    · have hshort : data.length ≤ 32 := Nat.not_lt.1 hlong
      rw [List.take_of_length_le hshort, List.drop_of_length_le hshort] at h
      rw [allPackets_last hshort, List.length_cons] at *
      rw [readSchedule_succ] at hin
      cases zlp with
      | false => exact h.run_last hin
      | true =>
        obtain ⟨hmod, hpos⟩ := hfull rfl
        have hone : ¬data.length / 32 % 2 = 0 := by omega
        have hzlp : zlpPacket d data true = [.data .ep0In (d ^^^ 1) []] := by rw [zlpPacket, if_pos rfl, if_neg hone]
        rw [hzlp] at *
        obtain ⟨t, hrun, harmed, hlog, hinputs⟩ := h.run_owed hin
        obtain ⟨u, hrun', hdone, hlog', hinputs'⟩ := harmed.run_last hinputs
        refine ⟨u, (run_add hrun 2).trans hrun', hdone, ?_, hinputs'⟩
        rw [hlog', hlog, List.append_assoc, List.singleton_append]

end

/-- A schedule does not change what is armed. -/
theorem ReadArmed.withInputs {s r : State} {chunk left : List Byte} {d : Toggle} {zlp : Bool}
    (h : ReadArmed s r chunk left d zlp) (inputs : List Input) :
    ReadArmed s { r with inputs := inputs } chunk left d zlp := by
  obtain ⟨⟨hcfg, hqueue, houtside, hdir, hinside, hspace, hbytes, htoggle, howed⟩, hsie, hstall, hdts, hcnt, hadr, hshort,
    hstored⟩ := h
  exact ⟨⟨hcfg, hqueue, houtside, hdir, hinside, hspace, hbytes, htoggle, howed⟩, hsie, hstall, hdts, hcnt, hadr, hshort,
    hstored⟩

/-- The empty packet is owed (R178). -/
def zlpOwed (c : Config) (data : List Byte) (wLength : Word16) : Bool :=
  decide (c.ctlZlp = .whenShort ∧ data.length < wLength.toNat ∧ data.length % 32 = 0 ∧ 0 < data.length)

/-- `StartControlRead` arms the first chunk of the clamped table (R178). -/
theorem startControlRead_armed {s t : State} {table : DescId} {wLength : Word16} (hcpu : s.bdEp0In.own = .cpu)
    (hqueue : s.trnFifo = []) (h : startControlRead table wLength s = .ok t) {data : List Byte}
    (hdata : data = (s.cfg.rom table).take wLength.toNat) :
    ReadArmed s t (data.take 32) (data.drop 32) 1 (zlpOwed s.cfg data wLength) ∧ t.hostLog = s.hostLog := by
  have hwidth := wLength.isLt
  have hlength : data.length = min wLength.toNat (s.cfg.rom table).length := by rw [hdata, List.length_take]
  have htotal : (BitVec.ofNat 16 data.length).toNat = data.length := by
    rw [BitVec.toNat_ofNat]
    omega
  have hbytes : data = ((s.cfg.rom table).drop 0).take (BitVec.ofNat 16 data.length).toNat := by
    rw [htotal, hlength, List.drop_zero, hdata, ← List.take_take, List.take_length]
  have htransfer : ReadTransfer s { s with
      ctlDir := .d2h, ctlSrcTable := table, ctlSrcOff := 0, ctlRemaining := BitVec.ofNat 16 data.length, ctlToggle := 1
      ctlZlp := zlpOwed s.cfg data wLength } data 1 (zlpOwed s.cfg data wLength) :=
    ⟨rfl, hqueue, fun _ _ => rfl, rfl, by rw [htotal]; simp; omega, by rw [htotal]; simp; omega, hbytes, rfl, rfl⟩
  obtain ⟨t', hsend, harmed, hlog, -⟩ := htransfer.sendChunk hcpu
  have hstart : startControlRead table wLength s = .ok t' := by
    have howed : zlpOwed s.cfg data wLength = (decide (s.cfg.ctlZlp = .whenShort) &&
        decide (data.length < wLength.toNat) && decide (data.length % pEp0Max = 0) && decide (0 < data.length)) := by
      rw [Bool.eq_iff_iff]
      simp only [zlpOwed, Bool.and_eq_true, decide_eq_true_eq, and_assoc]
      rfl
    simp only [startControlRead, ← hlength, ← howed]
    exact hsend
  obtain rfl := Except.ok.inj (h.symm.trans hstart)
  exact ⟨harmed, hlog⟩

/-- Settles O40: the request arms the first chunk, and from there the packets go one after the other. -/
theorem controlReadDelivers : Obligations.ControlReadDelivers := by
  intro s t i table lo wIndex wLength data packets rest hi hcpu hqueue hrun hdata hpackets
  rw [exec_readsTable hi] at hrun
  obtain ⟨harmed, hlog⟩ := startControlRead_armed hcpu hqueue (outcome_next hrun) hdata
  have hall : packets = allPackets (data.length + 1) 1 data (zlpOwed s.cfg data wLength) := by
    rw [hpackets, allPackets, zlpPacket]
    simp [zlpOwed]
  have howed : zlpOwed s.cfg data wLength = true → data.length % 32 = 0 ∧ 0 < data.length := fun h =>
    (of_decide_eq_true h).2.2
  rw [hall]
  obtain ⟨u, hu, hdone, hlog', hinputs⟩ := run_read (rest := rest) (Nat.lt_succ_self _) howed (harmed.withInputs _) rfl
  exact ⟨u, hu, by rw [hlog']; exact congrArg (· ++ _) hlog, hinputs, hdone.queue, hdone.dir, hdone.status, hdone.cpu,
    hdone.outside⟩

end Sys2Proof.Machine
end
